-- ==== Sys2Proof/Word.lean ====
section
/-! DEFINITION. The widths of the PSG core's plain values (spec/00_scope.md R6, R7, R9): the byte of the
data bus and of the registers, the latched address, and the channel index. -/

namespace Sys2Proof

/-- A register byte, and the data bus value (R6: register width and data bus width are 8 bits). -/
abbrev Byte := BitVec 8

/-- The latched address, which names one of the 16 registers (R6: `ADDR_W` is 4 bits). -/
abbrev Addr := BitVec 4

/-- A channel index `c`: 0, 1, 2 are the channels A, B, C (R9). -/
abbrev Channel := Fin 3

end Sys2Proof
end

