-- ==== Sys2Proof/Config.lean ====
section
/-! DEFINITION. What one machine fixes and the spec leaves open (spec/00_scope.md R6): the noise seed's type,
the host's float map, the sign of a zero sample, and the input clock rate. -/

namespace Sys2Proof

/-- A value of the parameter `NOISE_SEED`: 17 bits, never zero (R6; spec/93 Part 1: "A zero seed is not
admitted: the parameter's type excludes it"). Each machine carries its own seed (assumption log 4). -/
structure NoiseSeed where
  val : BitVec 17
  val_ne_zero : val ≠ 0
  deriving DecidableEq, Repr

/-- The default seed 0x00001 the spec names (R6, R36; D14). DESIGN CHOICE, log 4. -/
def NoiseSeed.default : NoiseSeed := ⟨0x00001#17, by decide⟩

/-- The bit pattern of the host's float, read as a number; the spec leaves its format and width open
(R285, D17). DESIGN CHOICE, log 5. -/
abbrev HostFloat := Nat

/-- `FLOAT_OF`: the host float of an exact sample numerator (R6, R285; D17). A free value. Log 5. -/
opaque Config.floatOf : Int → HostFloat

/-- The host's negative zero, which a sample whose numerator is 0 may return (R285; spec/93 Part 1:
"`any value` for the float sign"). A free value. Log 6. -/
opaque Config.negativeZero : HostFloat

/-- Whether a zero sample comes out as the negative zero, from the three channels' gates and volumes (R285).
A free value. Log 6. -/
opaque Config.zeroIsNegative : List (Bool × BitVec 4) → Bool

/-- `CHIP_CLOCK_HZ`: the chip's input clock rate in hertz (R6, D22). No rule of the step depends on it. A free value. The
spec gives the rate no value and no type; that it is a rational number is the model's. DESIGN CHOICE, log 7. -/
opaque Config.chipClockHz : Rat

end Sys2Proof
end

