-- ==== Sys2Proof/Syntax.lean ====
section
/-! DEFINITION. The encoded objects of the PSG core as syntax (spec/30_encoding.md R80-R84): the two formats and
their words, the 16 registers, and ONE constructor for each row of spec/opcode_table.json. -/

namespace Sys2Proof

/-- The two formats of the opcode table (R80): the 2-bit bus-mode word `BUS` that the host drives on the control
lines, and the 5-bit register-operation word `REGOP`, which appears on no wire (R83). -/
inductive Format
  | bus
  | regop
  deriving DecidableEq, Repr

/-- A word as it is presented, before any check: its format and its bits as a number, bit 0 the least
significant (R7). -/
structure CodeWord where
  format : Format
  bits   : Nat
  deriving DecidableEq, Repr

/-- The 16 registers, by the spec's names (R86). -/
inductive RegName
  | toneALo
  | toneAHi
  | toneBLo
  | toneBHi
  | toneCLo
  | toneCHi
  | noisePer
  | mixer
  | ampA
  | ampB
  | ampC
  | envLo
  | envHi
  | envShape
  | ioA
  | ioB
  deriving DecidableEq, Repr

/-- The instructions: one constructor per row of spec/opcode_table.json, in the table's order. The four `bus…`
are chip ticks with the lines at that bus-mode word (R81, R100). `wr<n>…` and `rd<n>…` are the register
operations that a Write edge and a Read edge perform at address `n` (R83, R142-R157, R160-R175). None has an
operand field: a write's operand is `DA` at the edge. -/
inductive Instr
  | busInactive
  | busRead
  | busWrite
  | busLatch
  | wr0ToneALo
  | wr1ToneAHi
  | wr2ToneBLo
  | wr3ToneBHi
  | wr4ToneCLo
  | wr5ToneCHi
  | wr6NoisePer
  | wr7Mixer
  | wr8AmpA
  | wr9AmpB
  | wr10AmpC
  | wr11EnvLo
  | wr12EnvHi
  | wr13EnvShape
  | wr14IoA
  | wr15IoB
  | rd0ToneALo
  | rd1ToneAHi
  | rd2ToneBLo
  | rd3ToneBHi
  | rd4ToneCLo
  | rd5ToneCHi
  | rd6NoisePer
  | rd7Mixer
  | rd8AmpA
  | rd9AmpB
  | rd10AmpC
  | rd11EnvLo
  | rd12EnvHi
  | rd13EnvShape
  | rd14IoA
  | rd15IoB
  deriving DecidableEq, Repr

end Sys2Proof
end

