-- ==== Sys2Proof/WellFormed.lean ====
section
/-! DEFINITION. What a well-formed word and a well-formed instruction are (spec/30_encoding.md R82, R83, R95). -/

namespace Sys2Proof

/-- A presented word fits its format: a BUS word has 2 bits (R81) and a REGOP word 5 bits (R83). -/
def CodeWord.wf (w : CodeWord) : Bool :=
  match w.format with
  | .bus   => decide (w.bits < 4)
  | .regop => decide (w.bits < 32)

/-- Every instruction is well formed: it has no operand field, and "Nothing in this hardware traps on an encoding"
(R95). -/
def Instr.wf (_ : Instr) : Bool := true

end Sys2Proof
end

