-- ==== Sys2Proof/Decode.lean ====
section
/-! DEFINITION. The decoder, total on every presented word and rejecting by name, and after it the encoder
(spec/30_encoding.md R81, R83). -/

namespace Sys2Proof

/-- Why a presented word is no word of its format. Only a model with types wider than the hardware's can meet one
(spec/60_exceptions.md R342). -/
inductive DecodeError
  /-- A bus-mode word that is none of the four line combinations. -/
  | noSuchMode (bits : Nat)
  /-- A register operation whose address lies outside 0-15. -/
  | noSuchRegister (bits : Nat)
  deriving DecidableEq, Repr

/-- The register a 4-bit address names (R86): every address names one, so none is out of range (R61). -/
def RegName.ofAddr (a : Addr) : RegName :=
  match a.getLsbD 3, a.getLsbD 2, a.getLsbD 1, a.getLsbD 0 with
  | false, false, false, false => .toneALo
  | false, false, false, true => .toneAHi
  | false, false, true, false => .toneBLo
  | false, false, true, true => .toneBHi
  | false, true, false, false => .toneCLo
  | false, true, false, true => .toneCHi
  | false, true, true, false => .noisePer
  | false, true, true, true => .mixer
  | true, false, false, false => .ampA
  | true, false, false, true => .ampB
  | true, false, true, false => .ampC
  | true, false, true, true => .envLo
  | true, true, false, false => .envHi
  | true, true, false, true => .envShape
  | true, true, true, false => .ioA
  | true, true, true, true => .ioB

/-- The address of a register (R86). -/
def RegName.addr : RegName → Addr
  | .toneALo => 0#4
  | .toneAHi => 1#4
  | .toneBLo => 2#4
  | .toneBHi => 3#4
  | .toneCLo => 4#4
  | .toneCHi => 5#4
  | .noisePer => 6#4
  | .mixer => 7#4
  | .ampA => 8#4
  | .ampB => 9#4
  | .ampC => 10#4
  | .envLo => 11#4
  | .envHi => 12#4
  | .envShape => 13#4
  | .ioA => 14#4
  | .ioB => 15#4

/-- The bus-mode word `{BDIR, BC1}` (R81): 00 Inactive, 01 Read, 10 Write, 11 LatchAddress (conflict C1, D1). -/
def decodeBus (w : Nat) : Except DecodeError Instr :=
  match w with
  | 0b00 => .ok .busInactive
  | 0b01 => .ok .busRead
  | 0b10 => .ok .busWrite
  | 0b11 => .ok .busLatch
  | w    => .error (.noSuchMode w)

/-- The read of each register (R83 with W = 0; R160-R175). -/
def readInstr : RegName → Instr
  | .toneALo => .rd0ToneALo
  | .toneAHi => .rd1ToneAHi
  | .toneBLo => .rd2ToneBLo
  | .toneBHi => .rd3ToneBHi
  | .toneCLo => .rd4ToneCLo
  | .toneCHi => .rd5ToneCHi
  | .noisePer => .rd6NoisePer
  | .mixer => .rd7Mixer
  | .ampA => .rd8AmpA
  | .ampB => .rd9AmpB
  | .ampC => .rd10AmpC
  | .envLo => .rd11EnvLo
  | .envHi => .rd12EnvHi
  | .envShape => .rd13EnvShape
  | .ioA => .rd14IoA
  | .ioB => .rd15IoB

/-- The write of each register (R83 with W = 1; R142-R157). -/
def writeInstr : RegName → Instr
  | .toneALo => .wr0ToneALo
  | .toneAHi => .wr1ToneAHi
  | .toneBLo => .wr2ToneBLo
  | .toneBHi => .wr3ToneBHi
  | .toneCLo => .wr4ToneCLo
  | .toneCHi => .wr5ToneCHi
  | .noisePer => .wr6NoisePer
  | .mixer => .wr7Mixer
  | .ampA => .wr8AmpA
  | .ampB => .wr9AmpB
  | .ampC => .wr10AmpC
  | .envLo => .wr11EnvLo
  | .envHi => .wr12EnvHi
  | .envShape => .wr13EnvShape
  | .ioA => .wr14IoA
  | .ioB => .wr15IoB

/-- The register-operation word `{W, A[3:0]}` (R83): bit 4 is W, bits 3:0 are the address. -/
def decodeRegOp (w : Nat) : Except DecodeError Instr :=
  if w < 32 then
    let r := RegName.ofAddr (BitVec.ofNat 4 w)
    .ok (if w.testBit 4 then writeInstr r else readInstr r)
  else .error (.noSuchRegister w)

/-- The decoder: the instruction a presented word stands for, or the name of what is wrong with it. -/
def decode (w : CodeWord) : Except DecodeError Instr :=
  match w.format with
  | .bus   => decodeBus w.bits
  | .regop => decodeRegOp w.bits

/-- The encoder, from the tables of R81 and R83: the word of each instruction. -/
def encode : Instr → CodeWord
  | .busInactive => ⟨.bus, 0b00⟩
  | .busRead => ⟨.bus, 0b01⟩
  | .busWrite => ⟨.bus, 0b10⟩
  | .busLatch => ⟨.bus, 0b11⟩
  | .wr0ToneALo => ⟨.regop, 0b10000⟩
  | .wr1ToneAHi => ⟨.regop, 0b10001⟩
  | .wr2ToneBLo => ⟨.regop, 0b10010⟩
  | .wr3ToneBHi => ⟨.regop, 0b10011⟩
  | .wr4ToneCLo => ⟨.regop, 0b10100⟩
  | .wr5ToneCHi => ⟨.regop, 0b10101⟩
  | .wr6NoisePer => ⟨.regop, 0b10110⟩
  | .wr7Mixer => ⟨.regop, 0b10111⟩
  | .wr8AmpA => ⟨.regop, 0b11000⟩
  | .wr9AmpB => ⟨.regop, 0b11001⟩
  | .wr10AmpC => ⟨.regop, 0b11010⟩
  | .wr11EnvLo => ⟨.regop, 0b11011⟩
  | .wr12EnvHi => ⟨.regop, 0b11100⟩
  | .wr13EnvShape => ⟨.regop, 0b11101⟩
  | .wr14IoA => ⟨.regop, 0b11110⟩
  | .wr15IoB => ⟨.regop, 0b11111⟩
  | .rd0ToneALo => ⟨.regop, 0b00000⟩
  | .rd1ToneAHi => ⟨.regop, 0b00001⟩
  | .rd2ToneBLo => ⟨.regop, 0b00010⟩
  | .rd3ToneBHi => ⟨.regop, 0b00011⟩
  | .rd4ToneCLo => ⟨.regop, 0b00100⟩
  | .rd5ToneCHi => ⟨.regop, 0b00101⟩
  | .rd6NoisePer => ⟨.regop, 0b00110⟩
  | .rd7Mixer => ⟨.regop, 0b00111⟩
  | .rd8AmpA => ⟨.regop, 0b01000⟩
  | .rd9AmpB => ⟨.regop, 0b01001⟩
  | .rd10AmpC => ⟨.regop, 0b01010⟩
  | .rd11EnvLo => ⟨.regop, 0b01011⟩
  | .rd12EnvHi => ⟨.regop, 0b01100⟩
  | .rd13EnvShape => ⟨.regop, 0b01101⟩
  | .rd14IoA => ⟨.regop, 0b01110⟩
  | .rd15IoB => ⟨.regop, 0b01111⟩

/-- The format of an opcode-table word given by its bit count alone. The table's widths are 2 (BUS) and 5 (REGOP).
A count in whole bytes names no format, and then the words 0-3, which the two formats share, are read as the words
that stand on a wire (BUS). DESIGN CHOICE, log 3. -/
def tableFormat (nbits w : Nat) : Format :=
  if nbits = 2 then .bus
  else if nbits = 5 then .regop
  else if w < 4 then .bus
  else .regop

/-- The instruction the decoder reads from an opcode-table word of `nbits` bits. -/
def decodeTableWord (nbits w : Nat) : Option Instr :=
  match decode ⟨tableFormat nbits w, w⟩ with
  | .ok i    => some i
  | .error _ => none

end Sys2Proof
end

