-- ==== Sys2Proof/Machine/State.lean ====
section
/-! DEFINITION. The state of the transition system as plain data (spec/10_state.md R20): the chip record, the two
output streams, the terminal marker, and the host's requests that are still to run; and the state after reset. -/

namespace Sys2Proof.Machine

/-- The four bus modes (R81). -/
inductive Mode
  | inactive
  | read
  | write
  | latchAddress
  deriving DecidableEq, Repr

/-- The direction of the envelope's current ramp (R28). -/
inductive Dir
  | up
  | down
  deriving DecidableEq, Repr

/-- The mode of an amplitude control (R29). -/
inductive AmpMode
  | fixed
  | envelope
  deriving DecidableEq, Repr

/-- A tone generator (R26). -/
structure Tone where
  period : BitVec 12
  cnt    : BitVec 12
  out    : Bool
  deriving DecidableEq, Repr

/-- The noise generator (R27). -/
structure Noise where
  period : BitVec 5
  cnt    : BitVec 5
  lfsr   : BitVec 17
  deriving DecidableEq, Repr

/-- The envelope generator (R28); the level and the hold are not stored (R34, D31). -/
structure Env where
  period : BitVec 16
  cnt    : BitVec 16
  shape  : BitVec 4
  step   : BitVec 5
  dir    : Dir
  deriving DecidableEq, Repr

/-- An amplitude control (R29). -/
structure Amp where
  mode : AmpMode
  vol  : BitVec 4
  deriving DecidableEq, Repr

/-- A channel's enable flags and debug override flags (R30). -/
structure Chan where
  toneEn   : Bool
  noiseEn  : Bool
  toneOvr  : Bool
  noiseOvr : Bool
  deriving DecidableEq, Repr

/-- The chip state, exactly the record of R20. There is no program counter (R21) and no memory but the register
space (R60). -/
structure Chip where
  mode  : Mode
  addr  : Addr
  da    : Byte
  regs  : Vector Byte 16
  div   : Fin 16
  tone  : Vector Tone 3
  noise : Noise
  env   : Env
  amp   : Vector Amp 3
  chan  : Vector Chan 3
  deriving DecidableEq, Repr

/-- A diagnostic event (R341, R344): not fatal, and it changes no chip state. -/
inductive Diag
  /-- Code 1: a write of `v` to register `reg` (always 7) with bit 6 or 7 of `v` set. -/
  | unsupportedConfig (reg : Addr) (v : Byte)
  deriving DecidableEq, Repr

/-- The faults (R342, R344). -/
inductive Fault
  /-- Code 2, fatal. Raised by a tick whose presented line word is none of the four bus modes; it records that word.
  The hardware's own lines are two Booleans and cannot present one (R82, R342), so this is SAFE. -/
  | invariantViolation (value : Nat)
  deriving DecidableEq, Repr

/-- What a host may do that the spec gives no meaning to (spec/93 Part 1, treatment `refuse`). -/
inductive HostMisuse
  /-- A call made from another thread without synchronisation (R74, R314). -/
  | unsynchronisedCall
  /-- The lines changed inside one tick (R318). -/
  | linesChangedInsideTick
  deriving DecidableEq, Repr

/-- The refusals. -/
inductive Refusal
  /-- Answered by exec's arm of an instruction that has no meaning yet. No arm answers it now. SAFE. -/
  | notModelled (mnemonic : String)
  /-- Answered by every instruction and every host operation of a chip whose terminal marker is set: "A faulted chip
  takes no further transition: every host operation and every tick is refused" (R343). SAFE: it is the spec's own. -/
  | chipFaulted (marker : Fault)
  /-- Answered by a request that breaks the host's duties (R74, R318). SAFE: the spec has no meaning for such a run. -/
  | hostMisuse (what : HostMisuse)
  deriving DecidableEq, Repr

/-- A request of the host (spec/46_host_interface.md, spec/70 R370). -/
inductive HostOp
  /-- `Update(n, lines)` (R312): one presented line word `{BDIR, BC1}` for each of its `n` ticks. -/
  | update (words : List Nat)
  /-- `WriteDA(v)` (R310). -/
  | writeDA (v : Byte)
  /-- `ReadDA()` (R311). -/
  | readDA
  /-- `Sample()` (R313). -/
  | sample
  /-- `Reset()` (R370). -/
  | reset
  /-- `SetToneOverride(c, b)` (R316). -/
  | setToneOverride (c : Channel) (b : Bool)
  /-- `SetNoiseOverride(c, b)` (R316). -/
  | setNoiseOverride (c : Channel) (b : Bool)
  /-- `DbgToneBit(c)` (R317). -/
  | dbgToneBit (c : Channel)
  /-- `DbgNoiseBit()` (R317). -/
  | dbgNoiseBit
  /-- `DbgEnvLevel()` (R317). -/
  | dbgEnvLevel
  /-- `DbgVolume(c)` (R317). -/
  | dbgVolume (c : Channel)
  /-- A request outside the model, which is refused (R74, R318). -/
  | misuse (what : HostMisuse)
  deriving DecidableEq, Repr

/-- What a host operation returned (R311, R313, R317). -/
inductive Reply
  /-- `ReadDA()`'s byte. -/
  | byte (v : Byte)
  /-- `Sample()`: the exact numerator `SampleNum` and the float the host receives. -/
  | sample (num : Int) (float : HostFloat)
  /-- `DbgToneBit(c)`. -/
  | toneBit (c : Channel) (b : Bool)
  /-- `DbgNoiseBit()`. -/
  | noiseBit (b : Bool)
  /-- `DbgEnvLevel()`. -/
  | envLevel (level : BitVec 4)
  /-- `DbgVolume(c)`. -/
  | volume (c : Channel) (vol : BitVec 4)
  deriving DecidableEq, Repr

/-- The whole transition system (R20). `chip` is the chip state. `diag` is the diagnostic output stream and `faulted`
the terminal marker. `pending`, `replies` and `seed` are the model's own: the requests the host has still to have
performed (log 1), what its operations returned (log 10), and this machine's `NOISE_SEED` (log 4). -/
structure State where
  chip    : Chip
  diag    : List Diag
  faulted : Option Fault
  pending : List HostOp
  replies : List Reply
  seed    : NoiseSeed
  deriving DecidableEq, Repr

/-- The reset value of every field of the chip record (R36), for a given `NOISE_SEED`. -/
def Chip.reset (seed : NoiseSeed) : Chip where
  mode  := .inactive
  addr  := 0
  da    := 0
  regs  := Vector.replicate 16 0
  div   := 0
  tone  := Vector.replicate 3 { period := 0, cnt := 1, out := false }
  noise := { period := 0, cnt := 1, lfsr := seed.val }
  env   := { period := 0, cnt := 1, shape := 0, step := 0, dir := .down }
  amp   := Vector.replicate 3 { mode := .fixed, vol := 0 }
  chan  := Vector.replicate 3 { toneEn := false, noiseEn := false, toneOvr := false, noiseOvr := false }

/-- A freshly constructed machine with the given `NOISE_SEED`: its chip is in the reset state (R37), nothing has been
output, and the host has asked for nothing. -/
def State.construct (seed : NoiseSeed) : State where
  chip    := Chip.reset seed
  diag    := []
  faulted := none
  pending := []
  replies := []
  seed    := seed

/-- The machine right after reset, with the default seed (R36, R37). -/
def State.reset : State := State.construct NoiseSeed.default

end Sys2Proof.Machine
end

