-- ==== Sys2Proof/Machine/Flags.lean ====
section
/-! DEFINITION. The single-bit state's computations (spec/10_state.md R24): the mixer byte's enable flags, its
I/O-port control bits, and the four shape bits. -/

namespace Sys2Proof.Machine

/-- `v[c] == 0`: tone of channel `c` is enabled by a 0 bit, "inverted logic" (R85, R90). -/
def toneEnable (v : Byte) (c : Nat) : Bool := !v.getLsbD c

/-- `v[3+c] == 0`: noise of channel `c` is enabled by a 0 bit (R85, R90). -/
def noiseEnable (v : Byte) (c : Nat) : Bool := !v.getLsbD (3 + c)

/-- `v[7:6] != 0`: the mixer byte asks for I/O-port control, which is unsupported (R90, R341). -/
def asksIoControl (v : Byte) : Bool := v.getLsbD 7 || v.getLsbD 6

/-- A channel after a mixer write of `v`: both enables are set from `v`, the overrides are not written (R149). -/
def Chan.withMixer (ch : Chan) (v : Byte) (c : Nat) : Chan :=
  { ch with toneEn := toneEnable v c, noiseEn := noiseEnable v c }

/-- C, the continue bit of a shape: bit 3 (R93, R240; D9). -/
def continues (shape : BitVec 4) : Bool := shape.getLsbD 3

/-- At, the attack bit of a shape: bit 2 (R93, R240; D9). -/
def attacks (shape : BitVec 4) : Bool := shape.getLsbD 2

/-- Al, the alternate bit of a shape: bit 1 (R93, R240; D9). -/
def alternates (shape : BitVec 4) : Bool := shape.getLsbD 1

/-- H, the hold bit of a shape: bit 0 (R93, R240; D9). -/
def holds (shape : BitVec 4) : Bool := shape.getLsbD 0

/-- The opposite direction. -/
def Dir.reverse : Dir → Dir
  | .up   => .down
  | .down => .up

end Sys2Proof.Machine
end

