-- ==== Sys2Proof/Machine/Operands.lean ====
section
/-! DEFINITION. Operand assembly: how a written byte becomes a register's field, and how a field becomes the byte
read (spec/30_encoding.md R84, R85, R87-R93). -/

namespace Sys2Proof.Machine

/-- The address a latch captures: `DA[3:0]`; `DA[7:4]` is ignored (R84). -/
def latchField (da : Byte) : Addr := da.extractLsb' 0 4

/-- A tone period with its low byte replaced: `{p[11:8], v[7:0]}` (R85). -/
def withToneLow (p : BitVec 12) (v : Byte) : BitVec 12 := p.extractLsb' 8 4 ++ v

/-- A tone period with its high nibble replaced: `{v[3:0], p[7:0]}`; `v[7:4]` is ignored (R85, R88). -/
def withToneHigh (p : BitVec 12) (v : Byte) : BitVec 12 := v.extractLsb' 0 4 ++ p.extractLsb' 0 8

/-- The low byte of a tone period, `p[7:0]` (R87). -/
def toneLowByte (p : BitVec 12) : Byte := p.extractLsb' 0 8

/-- The high nibble of a tone period, zero-extended: `zext_8(p[11:8])` (R88, D25). -/
def toneHighByte (p : BitVec 12) : Byte := (p.extractLsb' 8 4).setWidth 8

/-- The noise period of a written byte, `v[4:0]` (R85, R89; D10). -/
def noiseField (v : Byte) : BitVec 5 := v.extractLsb' 0 5

/-- The noise period zero-extended to a byte (R89, D25). -/
def noiseByte (p : BitVec 5) : Byte := p.setWidth 8

/-- An envelope period with its low byte replaced: `{p[15:8], v}` (R85). -/
def withEnvLow (p : BitVec 16) (v : Byte) : BitVec 16 := p.extractLsb' 8 8 ++ v

/-- An envelope period with its high byte replaced: `{v, p[7:0]}` (R85). -/
def withEnvHigh (p : BitVec 16) (v : Byte) : BitVec 16 := v ++ p.extractLsb' 0 8

/-- The low byte of the envelope period (R92). -/
def envLowByte (p : BitVec 16) : Byte := p.extractLsb' 0 8

/-- The high byte of the envelope period (R92). -/
def envHighByte (p : BitVec 16) : Byte := p.extractLsb' 8 8

/-- The envelope shape of a written byte, `v[3:0]` (R85, R93; D9). -/
def shapeField (v : Byte) : BitVec 4 := v.extractLsb' 0 4

/-- The envelope shape zero-extended to a byte (R93, D25). -/
def shapeByte (p : BitVec 4) : Byte := p.setWidth 8

/-- The fixed volume of a written byte, `v[3:0]` (R85, R91; D8). -/
def volumeField (v : Byte) : BitVec 4 := v.extractLsb' 0 4

/-- The amplitude mode of a written byte: bit 4 set is Envelope (R85, R91; D8). -/
def ampModeField (v : Byte) : AmpMode := if v.getLsbD 4 then .envelope else .fixed

end Sys2Proof.Machine
end

