-- ==== Sys2Proof/Machine/Ops.lean ====
section
/-! DEFINITION. The named operations over the state: the register file, the chip record, the output streams, and the
fault and its terminal marker (spec/60_exceptions.md R341-R343). -/

namespace Sys2Proof.Machine

/-- The answer of one transition. -/
abbrev Answer := Host.Outcome State Fault Refusal

/-- `REG[a]`, the backing byte (R22). -/
def Chip.reg (c : Chip) (a : Addr) : Byte := c.regs[a.toNat]'a.isLt

/-- `REG[a] <- v`: every register write stores its byte (R22, D7). -/
def Chip.setReg (c : Chip) (a : Addr) (v : Byte) : Chip :=
  { c with regs := c.regs.set a.toNat v a.isLt }

/-- Tone generator `i` replaced by its image under `f`. -/
def Chip.mapTone (c : Chip) (i : Channel) (f : Tone → Tone) : Chip :=
  { c with tone := c.tone.set i.val (f c.tone[i]) }

/-- Amplitude control `i` replaced by its image under `f`. -/
def Chip.mapAmp (c : Chip) (i : Channel) (f : Amp → Amp) : Chip :=
  { c with amp := c.amp.set i.val (f c.amp[i]) }

/-- Channel `i` replaced by its image under `f`. -/
def Chip.mapChan (c : Chip) (i : Channel) (f : Chan → Chan) : Chip :=
  { c with chan := c.chan.set i.val (f c.chan[i]) }

/-- A change of the chip record alone. -/
def State.onChip (s : State) (f : Chip → Chip) : State := { s with chip := f s.chip }

/-- `emit Diag(…)`: the event is appended to the diagnostic list and no chip state changes (R8, R341). -/
def State.emit (s : State) (d : Diag) : State := { s with diag := s.diag ++ [d] }

/-- An operation's returned value, handed to the host. -/
def State.reply (s : State) (r : Reply) : State := { s with replies := s.replies ++ [r] }

/-- A transition of a chip that is not faulted; a faulted chip takes none, every operation is refused (R343). -/
def State.running (s : State) (f : State → State) : Answer :=
  match s.faulted with
  | none   => .next (f s)
  | some k => .refused (.chipFaulted k)

/-- `raise Fault(k)`: the run ends (R8, R343). The absorbing fault state is `State.settle` of this answer. Log 9. -/
def raise (k : Fault) : Answer := .fault k

/-- Where the transition system stands after an answer: a fault sets the terminal marker `faulted <- k` and changes
nothing else (R343, R347); a refused operation changes nothing. Log 9. -/
def State.settle (s : State) : Answer → State
  | .next t    => t
  | .fault k   => { s with faulted := some k }
  | .refused _ => s

/-- The code of a diagnostic (R344, D19). -/
def Diag.code : Diag → Nat
  | .unsupportedConfig _ _ => 1

/-- The code of a fault (R344, D20). -/
def Fault.code : Fault → Nat
  | .invariantViolation _ => 2

/-- `max(period, 1)`, the reload value of a down-counter: a period of 0 counts as 1 (R201, R204, R221, R244). -/
def reload {w : Nat} (period : BitVec w) : BitVec w := if period = 0 then 1 else period

end Sys2Proof.Machine
end

