-- ==== Sys2Proof/Machine/Envelope.lean ====
section
/-! DEFINITION. The envelope generator, a state machine of 16 shapes (spec/44_envelope.md). -/

namespace Sys2Proof.Machine

/-- `EnvRestart()`: step 0 and the direction of the shape's attack bit; the counter and the period are unchanged
(R241, D6). -/
def Env.restart (e : Env) : Env :=
  { e with step := 0, dir := if attacks e.shape then .up else .down }

/-- `env.step[3:0]`, the position within a ramp (R242). -/
def Env.position (e : Env) : BitVec 4 := e.step.extractLsb' 0 4

/-- `EnvLevel()` (R242): the position on an Up ramp, 15 minus the position on a Down ramp. -/
def Env.level (e : Env) : BitVec 4 :=
  match e.dir with
  | .up   => e.position
  | .down => 15 - e.position

/-- `Final(shape)`: the step at which the shape holds, where it holds at all (R243). -/
def finalStep (shape : BitVec 4) : Option (BitVec 5) :=
  if continues shape then
    if holds shape then
      if alternates shape then some 31 else some 15
    else none
  else some 15

/-- The hold predicate (R243, D31). -/
def Env.holding (e : Env) : Bool := finalStep e.shape == some e.step

/-- `EnvStep()` (R245): nothing while holding; else the step advances modulo 32, and an alternating continuing shape
reverses its direction at each ramp boundary. -/
def Env.advance (e : Env) : Env :=
  if e.holding then e
  else
    let e := { e with step := e.step + 1 }
    if continues e.shape && alternates e.shape && e.position == 0 then { e with dir := e.dir.reverse }
    else e

/-- `EnvClock()` (R244): the counter is decremented, and on expiry it is reloaded and one step is taken. -/
def Env.clock (e : Env) : Env :=
  let cnt := e.cnt - 1
  if cnt = 0 then { e with cnt := reload e.period }.advance
  else { e with cnt := cnt }

end Sys2Proof.Machine
end

