-- ==== Sys2Proof/Machine/Noise.lean ====
section
/-! DEFINITION. The noise generator (spec/43_noise.md). -/

namespace Sys2Proof.Machine

/-- One shift of the 17-bit LFSR: `{lfsr[0] XOR lfsr[3], lfsr[16:1]}` (R221, R223). -/
def lfsrNext (lfsr : BitVec 17) : BitVec 17 :=
  BitVec.ofBool (lfsr.getLsbD 0 ^^ lfsr.getLsbD 3) ++ lfsr.extractLsb' 1 16

/-- `NoiseClock()`: the counter is decremented, and on expiry it is reloaded and the LFSR shifts (R221). -/
def Noise.clock (n : Noise) : Noise :=
  let cnt := n.cnt - 1
  if cnt = 0 then { n with cnt := reload n.period, lfsr := lfsrNext n.lfsr }
  else { n with cnt := cnt }

/-- `NoiseValue()`, the low bit of the shift register (R222). -/
def Noise.value (n : Noise) : Bool := n.lfsr.getLsbD 0

end Sys2Proof.Machine
end

