-- ==== Sys2Proof/Machine/Tone.lean ====
section
/-! DEFINITION. The tone generators (spec/42_tone.md). -/

namespace Sys2Proof.Machine

/-- `ToneClock(c)`: the counter is decremented, and on expiry it is reloaded and the output flips (R201). -/
def Tone.clock (t : Tone) : Tone :=
  let cnt := t.cnt - 1
  if cnt = 0 then { t with cnt := reload t.period, out := !t.out }
  else { t with cnt := cnt }

/-- `ToneValue(c)` (R202). -/
def Chip.toneValue (c : Chip) (i : Channel) : Bool := c.tone[i].out

/-- The frequency in hertz of a tone of period `p > 0` at chip clock `f`: `f / (16 x 2p)` (R113). The spec
gives the rate no type; a rational number of hertz is the model's choice. DESIGN CHOICE, log 7. -/
def toneFrequency (f : Rat) (p : BitVec 12) : Rat := f / (16 * (2 * (p.toNat : Rat)))

/-- The frequency in hertz of a tone generator of this machine, whose clock rate the spec leaves open (R113, D22; log 7);
period 0 counts as 1 (R204). -/
def Tone.frequency (t : Tone) : Rat := toneFrequency Config.chipClockHz (reload t.period)

end Sys2Proof.Machine
end

