-- ==== Sys2Proof/Machine/Mixer.lean ====
section
/-! DEFINITION. Amplitude, the channel gate and the sample mix: pure functions of the chip record
(spec/45_amplitude_mixer.md; R34). -/

namespace Sys2Proof.Machine

/-- `Volume(c)` (R280): the fixed volume, or the one shared envelope's level. -/
def Chip.volume (c : Chip) (i : Channel) : BitVec 4 :=
  match c.amp[i].mode with
  | .fixed    => c.amp[i].vol
  | .envelope => c.env.level

/-- `effTone(c)` (R282): the tone bit, or 1 where the tone is neither enabled nor overridden. -/
def Chip.effTone (c : Chip) (i : Channel) : Bool :=
  c.tone[i].out || !(c.chan[i].toneEn || c.chan[i].toneOvr)

/-- `effNoise(c)` (R282): the shared noise bit, or 1 where noise is neither enabled nor overridden. -/
def Chip.effNoise (c : Chip) (i : Channel) : Bool :=
  c.noise.value || !(c.chan[i].noiseEn || c.chan[i].noiseOvr)

/-- `Gate(c)` (R282). -/
def Chip.gate (c : Chip) (i : Channel) : Bool := c.effTone i && c.effNoise i

/-- `ChanNum(c)`, an integer -15..15 (R283). -/
def Chip.chanNum (c : Chip) (i : Channel) : Int :=
  if c.gate i then (c.volume i).toNat else -((c.volume i).toNat : Int)

/-- `SampleNum`, an integer -45..45 (R284). -/
def Chip.sampleNum (c : Chip) : Int := c.chanNum 0 + c.chanNum 1 + c.chanNum 2

/-- `NormVol(c) = Volume(c) / 15`, exact (R281). -/
def Chip.normVol (c : Chip) (i : Channel) : Rat := ((c.volume i).toNat : Rat) / 15

/-- `ChanSample(c)`, an exact rational in [-1, 1] (R283). -/
def Chip.chanSample (c : Chip) (i : Channel) : Rat := if c.gate i then c.normVol i else -c.normVol i

/-- `PsgSample`, the unweighted mean of the three channel samples, exact (R284). -/
def Chip.psgSample (c : Chip) : Rat := (c.chanSample 0 + c.chanSample 1 + c.chanSample 2) / 3

/-- The float the host receives (R285): `FLOAT_OF(SampleNum)`, but the sign of a zero is free (spec/93 Part 1, "`any
value` for the float sign"). Logs 5 and 6. -/
def Chip.sampleFloat (c : Chip) : HostFloat :=
  if c.sampleNum = 0 ∧ Config.zeroIsNegative [(c.gate 0, c.volume 0), (c.gate 1, c.volume 1), (c.gate 2, c.volume 2)] = true
  then Config.negativeZero
  else Config.floatOf c.sampleNum

end Sys2Proof.Machine
end

