-- ==== Sys2Proof/Machine/RegRead.lean ====
section
/-! DEFINITION. The 16 register reads (spec/41_register_access.md R140, R160-R175): the value each address is read as,
the dispatch `RegRead`, and the meaning of each read instruction. -/

namespace Sys2Proof.Machine

/-- The value register 0 is read as (R160). -/
def readToneALo (c : Chip) : Byte := toneLowByte c.tone[0].period

/-- The value register 1 is read as (R161). -/
def readToneAHi (c : Chip) : Byte := toneHighByte c.tone[0].period

/-- The value register 2 is read as (R162). -/
def readToneBLo (c : Chip) : Byte := toneLowByte c.tone[1].period

/-- The value register 3 is read as (R163). -/
def readToneBHi (c : Chip) : Byte := toneHighByte c.tone[1].period

/-- The value register 4 is read as (R164). -/
def readToneCLo (c : Chip) : Byte := toneLowByte c.tone[2].period

/-- The value register 5 is read as (R165). -/
def readToneCHi (c : Chip) : Byte := toneHighByte c.tone[2].period

/-- The value register 6 is read as (R166). -/
def readNoisePer (c : Chip) : Byte := noiseByte c.noise.period

/-- The value register 7 is read as (R167). -/
def readMixer (c : Chip) : Byte := c.reg 7

/-- The value register 8 is read as (R168). -/
def readAmpA (c : Chip) : Byte := c.reg 8

/-- The value register 9 is read as (R169). -/
def readAmpB (c : Chip) : Byte := c.reg 9

/-- The value register 10 is read as (R170). -/
def readAmpC (c : Chip) : Byte := c.reg 10

/-- The value register 11 is read as (R171). -/
def readEnvLo (c : Chip) : Byte := envLowByte c.env.period

/-- The value register 12 is read as (R172). -/
def readEnvHi (c : Chip) : Byte := envHighByte c.env.period

/-- The value register 13 is read as (R173). -/
def readEnvShape (c : Chip) : Byte := shapeByte c.env.shape

/-- The value register 14 is read as (R174). -/
def readIoA (c : Chip) : Byte := c.reg 14

/-- The value register 15 is read as (R175). -/
def readIoB (c : Chip) : Byte := c.reg 15

/-- `RegRead(a)` (R140): it changes no state. -/
def regRead (a : Addr) (c : Chip) : Byte :=
  match RegName.ofAddr a with
  | .toneALo => readToneALo c
  | .toneAHi => readToneAHi c
  | .toneBLo => readToneBLo c
  | .toneBHi => readToneBHi c
  | .toneCLo => readToneCLo c
  | .toneCHi => readToneCHi c
  | .noisePer => readNoisePer c
  | .mixer => readMixer c
  | .ampA => readAmpA c
  | .ampB => readAmpB c
  | .ampC => readAmpC c
  | .envLo => readEnvLo c
  | .envHi => readEnvHi c
  | .envShape => readEnvShape c
  | .ioA => readIoA c
  | .ioB => readIoB c

/-- `DA <- value` (R104): a read puts its value in `DA` and changes nothing else. -/
def State.loadDA (s : State) (value : Chip → Byte) : State :=
  s.onChip fun c => { c with da := value c }

/-- `RD0_TONE_A_LO` (R160): `DA <- RegRead(0)`. -/
def execRd0ToneALo (s : State) : Answer := s.running fun s => s.loadDA readToneALo

/-- `RD1_TONE_A_HI` (R161): `DA <- RegRead(1)`. -/
def execRd1ToneAHi (s : State) : Answer := s.running fun s => s.loadDA readToneAHi

/-- `RD2_TONE_B_LO` (R162): `DA <- RegRead(2)`. -/
def execRd2ToneBLo (s : State) : Answer := s.running fun s => s.loadDA readToneBLo

/-- `RD3_TONE_B_HI` (R163): `DA <- RegRead(3)`. -/
def execRd3ToneBHi (s : State) : Answer := s.running fun s => s.loadDA readToneBHi

/-- `RD4_TONE_C_LO` (R164): `DA <- RegRead(4)`. -/
def execRd4ToneCLo (s : State) : Answer := s.running fun s => s.loadDA readToneCLo

/-- `RD5_TONE_C_HI` (R165): `DA <- RegRead(5)`. -/
def execRd5ToneCHi (s : State) : Answer := s.running fun s => s.loadDA readToneCHi

/-- `RD6_NOISE_PER` (R166): `DA <- RegRead(6)`. -/
def execRd6NoisePer (s : State) : Answer := s.running fun s => s.loadDA readNoisePer

/-- `RD7_MIXER` (R167): `DA <- RegRead(7)`. -/
def execRd7Mixer (s : State) : Answer := s.running fun s => s.loadDA readMixer

/-- `RD8_AMP_A` (R168): `DA <- RegRead(8)`. -/
def execRd8AmpA (s : State) : Answer := s.running fun s => s.loadDA readAmpA

/-- `RD9_AMP_B` (R169): `DA <- RegRead(9)`. -/
def execRd9AmpB (s : State) : Answer := s.running fun s => s.loadDA readAmpB

/-- `RD10_AMP_C` (R170): `DA <- RegRead(10)`. -/
def execRd10AmpC (s : State) : Answer := s.running fun s => s.loadDA readAmpC

/-- `RD11_ENV_LO` (R171): `DA <- RegRead(11)`. -/
def execRd11EnvLo (s : State) : Answer := s.running fun s => s.loadDA readEnvLo

/-- `RD12_ENV_HI` (R172): `DA <- RegRead(12)`. -/
def execRd12EnvHi (s : State) : Answer := s.running fun s => s.loadDA readEnvHi

/-- `RD13_ENV_SHAPE` (R173): `DA <- RegRead(13)`. -/
def execRd13EnvShape (s : State) : Answer := s.running fun s => s.loadDA readEnvShape

/-- `RD14_IO_A` (R174): `DA <- RegRead(14)`. -/
def execRd14IoA (s : State) : Answer := s.running fun s => s.loadDA readIoA

/-- `RD15_IO_B` (R175): `DA <- RegRead(15)`. -/
def execRd15IoB (s : State) : Answer := s.running fun s => s.loadDA readIoB

end Sys2Proof.Machine
end

