-- ==== Sys2Proof/Machine/RegWrite.lean ====
section
/-! DEFINITION. The 16 register writes (spec/41_register_access.md R141-R157): what a write of the byte `v` does at
each address, the dispatch `RegWrite`, and the meaning of each write instruction. Every write stores its byte in `REG[a]`
(D7); none touches a generator's down-counter or output (D5). -/

namespace Sys2Proof.Machine

/-- A write of `v` to register 0 (R142): the low byte of tone A's period. -/
def writeToneALo (v : Byte) (s : State) : State :=
  s.onChip fun c => (c.setReg 0 v).mapTone 0 fun t => { t with period := withToneLow t.period v }

/-- A write of `v` to register 1 (R143): the high nibble of tone A's period. -/
def writeToneAHi (v : Byte) (s : State) : State :=
  s.onChip fun c => (c.setReg 1 v).mapTone 0 fun t => { t with period := withToneHigh t.period v }

/-- A write of `v` to register 2 (R144): the low byte of tone B's period. -/
def writeToneBLo (v : Byte) (s : State) : State :=
  s.onChip fun c => (c.setReg 2 v).mapTone 1 fun t => { t with period := withToneLow t.period v }

/-- A write of `v` to register 3 (R145): the high nibble of tone B's period. -/
def writeToneBHi (v : Byte) (s : State) : State :=
  s.onChip fun c => (c.setReg 3 v).mapTone 1 fun t => { t with period := withToneHigh t.period v }

/-- A write of `v` to register 4 (R146): the low byte of tone C's period. -/
def writeToneCLo (v : Byte) (s : State) : State :=
  s.onChip fun c => (c.setReg 4 v).mapTone 2 fun t => { t with period := withToneLow t.period v }

/-- A write of `v` to register 5 (R147): the high nibble of tone C's period. -/
def writeToneCHi (v : Byte) (s : State) : State :=
  s.onChip fun c => (c.setReg 5 v).mapTone 2 fun t => { t with period := withToneHigh t.period v }

/-- A write of `v` to register 6 (R148): the noise period. -/
def writeNoisePer (v : Byte) (s : State) : State :=
  s.onChip fun c => { c.setReg 6 v with noise := { c.noise with period := noiseField v } }

/-- A write of `v` to register 7 (R149): the six enable flags from `v[5:0]`, whatever `v[7:6]` holds, and the
unsupported-configuration diagnostic when `v[7:6]` is not zero (R341). -/
def writeMixer (v : Byte) (s : State) : State :=
  let s := s.onChip fun c =>
    (((c.setReg 7 v).mapChan 0 fun ch => ch.withMixer v 0).mapChan 1 fun ch => ch.withMixer v 1).mapChan 2 fun ch =>
      ch.withMixer v 2
  if asksIoControl v then s.emit (.unsupportedConfig 7 v) else s

/-- A write of `v` to register 8 (R150): amplitude A's mode and volume. -/
def writeAmpA (v : Byte) (s : State) : State :=
  s.onChip fun c => (c.setReg 8 v).mapAmp 0 fun _ => { mode := ampModeField v, vol := volumeField v }

/-- A write of `v` to register 9 (R151): amplitude B's mode and volume. -/
def writeAmpB (v : Byte) (s : State) : State :=
  s.onChip fun c => (c.setReg 9 v).mapAmp 1 fun _ => { mode := ampModeField v, vol := volumeField v }

/-- A write of `v` to register 10 (R152): amplitude C's mode and volume. -/
def writeAmpC (v : Byte) (s : State) : State :=
  s.onChip fun c => (c.setReg 10 v).mapAmp 2 fun _ => { mode := ampModeField v, vol := volumeField v }

/-- A write of `v` to register 11 (R153): the low byte of the envelope period. -/
def writeEnvLo (v : Byte) (s : State) : State :=
  s.onChip fun c => { c.setReg 11 v with env := { c.env with period := withEnvLow c.env.period v } }

/-- A write of `v` to register 12 (R154): the high byte of the envelope period. -/
def writeEnvHi (v : Byte) (s : State) : State :=
  s.onChip fun c => { c.setReg 12 v with env := { c.env with period := withEnvHigh c.env.period v } }

/-- A write of `v` to register 13 (R155): the shape, and the envelope restarts. -/
def writeEnvShape (v : Byte) (s : State) : State :=
  s.onChip fun c => { c.setReg 13 v with env := { c.env with shape := shapeField v }.restart }

/-- A write of `v` to register 14 (R156): the backing byte alone. -/
def writeIoA (v : Byte) (s : State) : State :=
  s.onChip fun c => c.setReg 14 v

/-- A write of `v` to register 15 (R157): the backing byte alone. -/
def writeIoB (v : Byte) (s : State) : State :=
  s.onChip fun c => c.setReg 15 v

/-- `RegWrite(a, v)` (R141). -/
def regWrite (a : Addr) (v : Byte) (s : State) : State :=
  match RegName.ofAddr a with
  | .toneALo => writeToneALo v s
  | .toneAHi => writeToneAHi v s
  | .toneBLo => writeToneBLo v s
  | .toneBHi => writeToneBHi v s
  | .toneCLo => writeToneCLo v s
  | .toneCHi => writeToneCHi v s
  | .noisePer => writeNoisePer v s
  | .mixer => writeMixer v s
  | .ampA => writeAmpA v s
  | .ampB => writeAmpB v s
  | .ampC => writeAmpC v s
  | .envLo => writeEnvLo v s
  | .envHi => writeEnvHi v s
  | .envShape => writeEnvShape v s
  | .ioA => writeIoA v s
  | .ioB => writeIoB v s

/-- `WR0_TONE_A_LO` (R142): `RegWrite(0, DA)`. -/
def execWr0ToneALo (s : State) : Answer := s.running fun s => writeToneALo s.chip.da s

/-- `WR1_TONE_A_HI` (R143): `RegWrite(1, DA)`. -/
def execWr1ToneAHi (s : State) : Answer := s.running fun s => writeToneAHi s.chip.da s

/-- `WR2_TONE_B_LO` (R144): `RegWrite(2, DA)`. -/
def execWr2ToneBLo (s : State) : Answer := s.running fun s => writeToneBLo s.chip.da s

/-- `WR3_TONE_B_HI` (R145): `RegWrite(3, DA)`. -/
def execWr3ToneBHi (s : State) : Answer := s.running fun s => writeToneBHi s.chip.da s

/-- `WR4_TONE_C_LO` (R146): `RegWrite(4, DA)`. -/
def execWr4ToneCLo (s : State) : Answer := s.running fun s => writeToneCLo s.chip.da s

/-- `WR5_TONE_C_HI` (R147): `RegWrite(5, DA)`. -/
def execWr5ToneCHi (s : State) : Answer := s.running fun s => writeToneCHi s.chip.da s

/-- `WR6_NOISE_PER` (R148): `RegWrite(6, DA)`. -/
def execWr6NoisePer (s : State) : Answer := s.running fun s => writeNoisePer s.chip.da s

/-- `WR7_MIXER` (R149): `RegWrite(7, DA)`. -/
def execWr7Mixer (s : State) : Answer := s.running fun s => writeMixer s.chip.da s

/-- `WR8_AMP_A` (R150): `RegWrite(8, DA)`. -/
def execWr8AmpA (s : State) : Answer := s.running fun s => writeAmpA s.chip.da s

/-- `WR9_AMP_B` (R151): `RegWrite(9, DA)`. -/
def execWr9AmpB (s : State) : Answer := s.running fun s => writeAmpB s.chip.da s

/-- `WR10_AMP_C` (R152): `RegWrite(10, DA)`. -/
def execWr10AmpC (s : State) : Answer := s.running fun s => writeAmpC s.chip.da s

/-- `WR11_ENV_LO` (R153): `RegWrite(11, DA)`. -/
def execWr11EnvLo (s : State) : Answer := s.running fun s => writeEnvLo s.chip.da s

/-- `WR12_ENV_HI` (R154): `RegWrite(12, DA)`. -/
def execWr12EnvHi (s : State) : Answer := s.running fun s => writeEnvHi s.chip.da s

/-- `WR13_ENV_SHAPE` (R155): `RegWrite(13, DA)`. -/
def execWr13EnvShape (s : State) : Answer := s.running fun s => writeEnvShape s.chip.da s

/-- `WR14_IO_A` (R156): `RegWrite(14, DA)`. -/
def execWr14IoA (s : State) : Answer := s.running fun s => writeIoA s.chip.da s

/-- `WR15_IO_B` (R157): `RegWrite(15, DA)`. -/
def execWr15IoB (s : State) : Answer := s.running fun s => writeIoB s.chip.da s

end Sys2Proof.Machine
end

