-- ==== Sys2Proof/Machine/Bus.lean ====
section
/-! DEFINITION. The chip tick (spec/40_bus_protocol.md): the edge-triggered bus actions, the mode update, the master
divider with the generator tick, and the meaning of the four bus-mode instructions. -/

namespace Sys2Proof.Machine

/-- `GeneratorTick()` (R111): the three tones, the noise generator and the envelope generator are clocked. None reads
another's state, so their order has no effect (R112). -/
def Chip.generatorTick (c : Chip) : Chip :=
  { c with
    tone  := #v[c.tone[0].clock, c.tone[1].clock, c.tone[2].clock]
    noise := c.noise.clock
    env   := c.env.clock }

/-- The master divider (R110): it counts every chip tick, and on the 16th it returns to 0 and clocks the generators. -/
def Chip.advanceDivider (c : Chip) : Chip :=
  if c.div.val + 1 = 16 then { c with div := 0 }.generatorTick
  else { c with div := c.div + 1 }

/-- The previous mode is Inactive, so a tick into another mode is an edge (R102). -/
def State.armed (s : State) : Bool := s.chip.mode == .inactive

/-- The rest of a tick after its bus action: `mode <- m` (R107), then the divider (R110), in that order (R100, D2). -/
def State.finishTick (m : Mode) (s : State) : State :=
  s.onChip fun c => { c with mode := m }.advanceDivider

/-- The Read edge's action (R104): `DA <- RegRead(addr)`. -/
def readAction (s : State) : State := s.loadDA (regRead s.chip.addr)

/-- The Write edge's action (R105): `RegWrite(addr, DA)`. -/
def writeAction (s : State) : State := regWrite s.chip.addr s.chip.da s

/-- The LatchAddress edge's action (R106): `addr <- DA[3:0]`. -/
def latchAction (s : State) : State := s.onChip fun c => { c with addr := latchField c.da }

/-- `BUS_INACTIVE` (R103): a tick into Inactive performs no bus action. -/
def execBusInactive (s : State) : Answer := s.running fun s => s.finishTick .inactive

/-- `BUS_READ` (R100, R102-R104): a Read edge acts; a tick that is no edge does not. -/
def execBusRead (s : State) : Answer :=
  s.running fun s => (if s.armed then readAction s else s).finishTick .read

/-- `BUS_WRITE` (R100, R102, R103, R105): a Write edge acts; a tick that is no edge does not. -/
def execBusWrite (s : State) : Answer :=
  s.running fun s => (if s.armed then writeAction s else s).finishTick .write

/-- `BUS_LATCH` (R100, R102, R103, R106): a LatchAddress edge acts; a tick that is no edge does not. -/
def execBusLatch (s : State) : Answer :=
  s.running fun s => (if s.armed then latchAction s else s).finishTick .latchAddress

end Sys2Proof.Machine
end

