-- ==== Sys2Proof/Machine/Dispatch.lean ====
section
/-! DEFINITION. The dispatch: one arm for each instruction, each one direct call of its meaning. -/

namespace Sys2Proof.Machine

def exec (i : Instr) (s : State) : Host.Outcome State Fault Refusal :=
  match i with
  | .busInactive => Sys2Proof.Machine.execBusInactive s
  | .busRead => Sys2Proof.Machine.execBusRead s
  | .busWrite => Sys2Proof.Machine.execBusWrite s
  | .busLatch => Sys2Proof.Machine.execBusLatch s
  | .wr0ToneALo => Sys2Proof.Machine.execWr0ToneALo s
  | .wr1ToneAHi => Sys2Proof.Machine.execWr1ToneAHi s
  | .wr2ToneBLo => Sys2Proof.Machine.execWr2ToneBLo s
  | .wr3ToneBHi => Sys2Proof.Machine.execWr3ToneBHi s
  | .wr4ToneCLo => Sys2Proof.Machine.execWr4ToneCLo s
  | .wr5ToneCHi => Sys2Proof.Machine.execWr5ToneCHi s
  | .wr6NoisePer => Sys2Proof.Machine.execWr6NoisePer s
  | .wr7Mixer => Sys2Proof.Machine.execWr7Mixer s
  | .wr8AmpA => Sys2Proof.Machine.execWr8AmpA s
  | .wr9AmpB => Sys2Proof.Machine.execWr9AmpB s
  | .wr10AmpC => Sys2Proof.Machine.execWr10AmpC s
  | .wr11EnvLo => Sys2Proof.Machine.execWr11EnvLo s
  | .wr12EnvHi => Sys2Proof.Machine.execWr12EnvHi s
  | .wr13EnvShape => Sys2Proof.Machine.execWr13EnvShape s
  | .wr14IoA => Sys2Proof.Machine.execWr14IoA s
  | .wr15IoB => Sys2Proof.Machine.execWr15IoB s
  | .rd0ToneALo => Sys2Proof.Machine.execRd0ToneALo s
  | .rd1ToneAHi => Sys2Proof.Machine.execRd1ToneAHi s
  | .rd2ToneBLo => Sys2Proof.Machine.execRd2ToneBLo s
  | .rd3ToneBHi => Sys2Proof.Machine.execRd3ToneBHi s
  | .rd4ToneCLo => Sys2Proof.Machine.execRd4ToneCLo s
  | .rd5ToneCHi => Sys2Proof.Machine.execRd5ToneCHi s
  | .rd6NoisePer => Sys2Proof.Machine.execRd6NoisePer s
  | .rd7Mixer => Sys2Proof.Machine.execRd7Mixer s
  | .rd8AmpA => Sys2Proof.Machine.execRd8AmpA s
  | .rd9AmpB => Sys2Proof.Machine.execRd9AmpB s
  | .rd10AmpC => Sys2Proof.Machine.execRd10AmpC s
  | .rd11EnvLo => Sys2Proof.Machine.execRd11EnvLo s
  | .rd12EnvHi => Sys2Proof.Machine.execRd12EnvHi s
  | .rd13EnvShape => Sys2Proof.Machine.execRd13EnvShape s
  | .rd14IoA => Sys2Proof.Machine.execRd14IoA s
  | .rd15IoB => Sys2Proof.Machine.execRd15IoB s

end Sys2Proof.Machine
end

