-- ==== Sys2Proof/Machine/HostOps.lean ====
section
/-! DEFINITION. The host's operations (spec/46_host_interface.md, spec/70_reset_and_hazards.md R370), and the taking of
the next tick's line word from the host's request. -/

namespace Sys2Proof.Machine

/-- `WriteDA(v)`: `DA <- v` (R310). -/
def hostWriteDA (v : Byte) (s : State) : Answer := s.running fun s => s.onChip fun c => { c with da := v }

/-- `ReadDA()`: it returns `DA` and changes no chip state (R311). -/
def hostReadDA (s : State) : Answer := s.running fun s => s.reply (.byte s.chip.da)

/-- `Sample()`: it returns the mixed sample and changes no chip state (R313). -/
def hostSample (s : State) : Answer :=
  s.running fun s => s.reply (.sample s.chip.sampleNum s.chip.sampleFloat)

/-- `Reset()`: every field of the chip record takes its reset value; the diagnostic list is left alone (R370). -/
def hostReset (s : State) : Answer := s.running fun s => s.onChip fun _ => Chip.reset s.seed

/-- `SetToneOverride(c, b)` (R316). -/
def hostSetToneOverride (i : Channel) (b : Bool) (s : State) : Answer :=
  s.running fun s => s.onChip fun c => c.mapChan i fun ch => { ch with toneOvr := b }

/-- `SetNoiseOverride(c, b)` (R316). -/
def hostSetNoiseOverride (i : Channel) (b : Bool) (s : State) : Answer :=
  s.running fun s => s.onChip fun c => c.mapChan i fun ch => { ch with noiseOvr := b }

/-- `DbgToneBit(c)` (R317). -/
def hostDbgToneBit (i : Channel) (s : State) : Answer :=
  s.running fun s => s.reply (.toneBit i (s.chip.toneValue i))

/-- `DbgNoiseBit()` (R317). -/
def hostDbgNoiseBit (s : State) : Answer := s.running fun s => s.reply (.noiseBit s.chip.noise.value)

/-- `DbgEnvLevel()` (R317). -/
def hostDbgEnvLevel (s : State) : Answer := s.running fun s => s.reply (.envLevel s.chip.env.level)

/-- `DbgVolume(c)` (R317). -/
def hostDbgVolume (i : Channel) (s : State) : Answer :=
  s.running fun s => s.reply (.volume i (s.chip.volume i))

/-- A request the spec has no meaning for (R74, R318; spec/93 Part 1: `refuse`). -/
def hostMisuse (what : HostMisuse) (s : State) : Answer :=
  match s.faulted with
  | none   => .refused (.hostMisuse what)
  | some k => .refused (.chipFaulted k)

/-- One chip tick with the presented line word `w` (R100, R101): the word's instruction is run. A word that is none of
the four modes raises `InvariantViolation` with that word (R342). -/
def tickWord (w : Nat) (s : State) : Answer :=
  match decodeBus w with
  | .ok i    => exec i s
  | .error _ => raise (.invariantViolation w)

/-- The requests left when an `Update` has `words` still to run: no host operation runs between its ticks (R312). -/
def requeue (words : List Nat) (rest : List HostOp) : List HostOp :=
  match words with
  | []     => rest
  | w :: ws => .update (w :: ws) :: rest

/-- One request of the host, already taken from the head of the list. An `Update` runs one tick, and its remaining ticks
go back to the head; `Update(0)` changes nothing (R312). -/
def perform (op : HostOp) (s : State) : Answer :=
  match op with
  | .update []             => s.running fun s => s
  | .update (w :: ws)      => tickWord w { s with pending := requeue ws s.pending }
  | .writeDA v             => hostWriteDA v s
  | .readDA                => hostReadDA s
  | .sample                => hostSample s
  | .reset                 => hostReset s
  | .setToneOverride c b   => hostSetToneOverride c b s
  | .setNoiseOverride c b  => hostSetNoiseOverride c b s
  | .dbgToneBit c          => hostDbgToneBit c s
  | .dbgNoiseBit           => hostDbgNoiseBit s
  | .dbgEnvLevel           => hostDbgEnvLevel s
  | .dbgVolume c           => hostDbgVolume c s
  | .misuse what           => hostMisuse what s

/-- The next request is taken from the head of the host's list and performed. With no request the chip keeps its state:
"A chip that the host does not tick keeps its state unchanged" (R354). A faulted chip refuses whatever comes (R343). -/
def takeRequest (s : State) : Answer :=
  match s.pending with
  | []         => s.running fun s => s
  | op :: rest =>
    match s.faulted with
    | none   => perform op { s with pending := rest }
    | some k => .refused (.chipFaulted k)

/-- The chip made ready for a register operation at address `a`: the address latched and the previous mode Inactive, so
that the next Read or Write tick is an edge at `a` (R83, R97). -/
def Chip.readyFor (a : Addr) (c : Chip) : Chip := { c with addr := a, mode := .inactive }

/-- The line word that performs a REGOP word `{W, A}` (R83): a Write tick for W = 1, a Read tick for W = 0. -/
def regOpLines (w : Nat) : Nat := if w.testBit 4 then 0b10 else 0b01

/-- A state whose next step runs the presented word. A BUS word becomes the next tick's lines. A REGOP word stands on no
wire (R83), so the chip is made ready for an edge at its address and the next tick drives the lines that perform it. A word
that is neither becomes the next tick's lines, which raise the fault. Log 2. -/
def placeWord (w : CodeWord) (s : State) : State :=
  match w.format, w.wf with
  | .regop, true =>
    { s with chip := s.chip.readyFor (BitVec.ofNat 4 w.bits), pending := .update [regOpLines w.bits] :: s.pending }
  | _, _ => { s with pending := .update [w.bits] :: s.pending }

end Sys2Proof.Machine
end

