-- ==== Sys2Proof/Machine/Step.lean ====
section
/-! DEFINITION. One step of the transition system, which performs the host's next request (spec/20_memory.md R70); and
where a word is placed so that the next step runs it. -/

namespace Sys2Proof.Machine

/-- One transition: the next request of the host is performed. -/
def step (s : State) : Host.Outcome State Fault Refusal := takeRequest s

/-- The state in which the very next step runs the opcode-table word `w` of `nbits` bits. Log 2 says how a program comes
to run from reset. -/
def State.withFetchWord (s : State) (nbits w : Nat) : State := placeWord ⟨tableFormat nbits w, w⟩ s

end Sys2Proof.Machine
end

