-- ==== Sys2Proof/Machine/Script.lean ====
section
/-! DEFINITION. The bus-script notation of spec/30_encoding.md R96: its commands, its pseudo-instructions with their
expansions, and the host requests a script stands for. -/

namespace Sys2Proof.Machine

/-- A script command (R96). -/
inductive ScriptCmd
  /-- `DA v`. -/
  | da (v : Byte)
  /-- `LINES m`. -/
  | lines (m : Mode)
  /-- `TICK n`. -/
  | tick (n : Nat)
  /-- `READDA`. -/
  | readDA
  /-- `RESET`. -/
  | reset
  /-- `SAMPLE`. -/
  | sample
  deriving DecidableEq, Repr

/-- The bus-mode word of a mode (R81, R96). -/
def Mode.word : Mode → Nat
  | .inactive     => 0b00
  | .read         => 0b01
  | .write        => 0b10
  | .latchAddress => 0b11

/-- `LATCH a` (R96). -/
def scriptLatch (a : Byte) : List ScriptCmd := [.da a, .lines .latchAddress, .tick 1, .lines .inactive, .tick 1]

/-- `WR v` (R96). -/
def scriptWr (v : Byte) : List ScriptCmd := [.da v, .lines .write, .tick 1, .lines .inactive, .tick 1]

/-- `RD` (R96). -/
def scriptRd : List ScriptCmd := [.lines .read, .tick 1, .readDA, .lines .inactive, .tick 1]

/-- `SETREG a, v` (R96). -/
def scriptSetReg (a v : Byte) : List ScriptCmd := scriptLatch a ++ scriptWr v

/-- `GETREG a` (R96). -/
def scriptGetReg (a : Byte) : List ScriptCmd := scriptLatch a ++ scriptRd

/-- `IDLE n` (R96). -/
def scriptIdle (n : Nat) : List ScriptCmd := [.lines .inactive, .tick n]

/-- The host requests of a script. `LINES m` fixes the pair that the following `TICK`s use (R315); the pair before the first
`LINES` is the argument `m`. Log 13. -/
def compileScript (m : Mode) : List ScriptCmd → List HostOp
  | []                  => []
  | .da v :: cmds       => .writeDA v :: compileScript m cmds
  | .lines m' :: cmds   => compileScript m' cmds
  | .tick n :: cmds     => .update (List.replicate n m.word) :: compileScript m cmds
  | .readDA :: cmds     => .readDA :: compileScript m cmds
  | .reset :: cmds      => .reset :: compileScript m cmds
  | .sample :: cmds     => .sample :: compileScript m cmds

end Sys2Proof.Machine
end

