-- ==== Sys2Proof/Safety.lean ====
section
/-! DEFINITION. What claims are stated in: the chip's invariant (spec/10_state.md R31), the host's well-formed requests
(spec/46_host_interface.md R312, R318), and a run as the transition system's spec has it (spec/60_exceptions.md R343). -/

namespace Sys2Proof.Machine

/-- The direction the invariant of R31 gives: `attack XOR (continue AND alternate AND step[4])` is 1 for Up. -/
def Env.expectedDir (e : Env) : Dir :=
  if (attacks e.shape ^^ (continues e.shape && alternates e.shape && e.step.getLsbD 4)) = true then .up else .down

/-- The invariants of R31. The upper bounds of the counters, and the bounds of the step and the divider, are their types'. -/
structure Chip.Inv (c : Chip) : Prop where
  tone_cnt  : ∀ i : Channel, 1 ≤ c.tone[i].cnt.toNat
  noise_cnt : 1 ≤ c.noise.cnt.toNat
  env_cnt   : 1 ≤ c.env.cnt.toNat
  lfsr      : c.noise.lfsr ≠ 0
  dir       : c.env.dir = c.env.expectedDir

/-- A request the hardware's own interface can make: each line word is one of the four pairs of Booleans, and the host
keeps its duties (R33, R318). -/
def HostOp.wf : HostOp → Bool
  | .update ws => ws.all fun w => decide (w < 4)
  | .misuse _  => false
  | _          => true

/-- Every request still to run is well formed. -/
def State.requestsWf (s : State) : Bool := s.pending.all HostOp.wf

/-- `n` transitions of the spec's transition system: a fault sets the marker, and a faulted chip stays as it is (R343). -/
def State.runSettled : Nat → State → State
  | 0,     s => s
  | n + 1, s => State.runSettled n (s.settle (step s))

/-- `for i in 1..n: Tick(BDIR_i, BC1_i)`, the ticks of an `Update` in order (R312). -/
def runTicks : List Nat → State → Answer
  | [],      s => .next s
  | w :: ws, s =>
    match tickWord w s with
    | .next t    => runTicks ws t
    | .fault k   => .fault k
    | .refused r => .refused r

end Sys2Proof.Machine
end

