-- ==== Sys2Proof/Certificates/Slice0/Obligations.lean ====
section
/-! DEFINITION. The statements about the PSG core, one for each rule or group of rules of spec/. A statement about a
register operation gives the whole next state, so it is the result, the completion and the frame at once: every field the
equation does not name is unchanged. Fields are given by numbers (`toNat`), not by the model's own bit helpers. -/

open Sys2Proof Sys2Proof.Machine

/-! ### Encoding -/

/-- R81 and R83, a few words written out from the tables: the bus-mode words, and register operations `{W, A}`. The bus-mode
order is the spec's choice (D1, C1) and the REGOP word is the spec's own notation (D21). -/
def Obligations.TableWordsDecodeToTheirRows : Prop :=
  decode ⟨.bus, 0b00⟩ = .ok .busInactive ∧ decode ⟨.bus, 0b01⟩ = .ok .busRead ∧
  decode ⟨.bus, 0b10⟩ = .ok .busWrite ∧ decode ⟨.bus, 0b11⟩ = .ok .busLatch ∧
  decode ⟨.regop, 0b00000⟩ = .ok .rd0ToneALo ∧ decode ⟨.regop, 0b01101⟩ = .ok .rd13EnvShape ∧
  decode ⟨.regop, 0b10111⟩ = .ok .wr7Mixer ∧ decode ⟨.regop, 0b11111⟩ = .ok .wr15IoB

/-- R82, R83, R95: decoding an instruction's word gives it back, an instruction has no other word, and exactly the words that
fit their format decode. -/
def Obligations.DecodeAndEncodeAreInverse : Prop :=
  (∀ i : Instr, i.wf = true → decode (encode i) = .ok i) ∧
  (∀ (w : CodeWord) (i : Instr), decode w = .ok i → w = encode i) ∧
  (∀ w : CodeWord, (∃ i, decode w = .ok i) ↔ w.wf = true)

/-- R342 (log 8): a word of a type wider than the hardware's is rejected by name, and no instruction is picked for it. -/
def Obligations.OutOfRangeWordsRejectedByName : Prop :=
  (∀ w : Nat, 4 ≤ w → decode ⟨.bus, w⟩ = .error (.noSuchMode w)) ∧
  (∀ w : Nat, 32 ≤ w → decode ⟨.regop, w⟩ = .error (.noSuchRegister w))

/-! ### The step runs the decoded instruction -/

/-- R100, R101, R312: a tick runs the instruction its line word decodes to; the remaining ticks of the `Update` come before any
other request. The list of requests is the model's own (log 1). -/
def Obligations.StepRunsTheDecodedBusWord : Prop :=
  ∀ (s : State) (w : Nat) (ws : List Nat) (rest : List HostOp) (i : Instr),
    s.faulted = none → s.pending = .update (w :: ws) :: rest → decode ⟨.bus, w⟩ = .ok i →
    step s = exec i { s with pending := if ws = [] then rest else .update ws :: rest }

/-- R97, R100 (that the register operation comes before the mode update and the divider's generator tick is the spec's choice,
D2; log 22, unsafe): on an edge, the Read or Write tick performs the register operation `{W, addr}` that the decoder gives, and
then records its mode and advances the divider. -/
def Obligations.EdgePerformsTheLatchedRegisterOperation : Prop :=
  ∀ (s : State) (i : Instr), s.faulted = none → s.chip.mode = .inactive →
    (decode ⟨.regop, s.chip.addr.toNat⟩ = .ok i →
      ∃ u, exec i s = .next u ∧
        exec .busRead s = .next { u with chip := { u.chip with mode := .read }.advanceDivider }) ∧
    (decode ⟨.regop, 16 + s.chip.addr.toNat⟩ = .ok i →
      ∃ u, exec i s = .next u ∧
        exec .busWrite s = .next { u with chip := { u.chip with mode := .write }.advanceDivider })

/-- Log 2 (the model's own placing of a word): the very next step runs the placed word. A BUS word is the next tick's lines; a
REGOP word is run as the edge at its address, with what the tick adds after it (that the operation comes before the divider's
generator tick is the spec's choice, D2; log 22, unsafe). -/
def Obligations.PlacedWordRunsInTheNextStep : Prop :=
  ∀ (s : State) (w : Nat) (i : Instr), s.faulted = none →
    (decode ⟨.bus, w⟩ = .ok i → step (s.withFetchWord 2 w) = exec i s) ∧
    (decode ⟨.regop, w⟩ = .ok i →
      ∃ u, exec i { s with chip := { s.chip with addr := BitVec.ofNat 4 w, mode := .inactive } } = .next u ∧
        step (s.withFetchWord 5 w) = .next { u with chip :=
          { u.chip with mode := if 16 ≤ w then .write else .read }.advanceDivider })

/-! ### The chip tick -/

/-- R103(b), R107, R110: a tick into Inactive performs no bus action; it records its mode and advances the divider. -/
def Obligations.InactiveTickOnlyRecordsModeAndDivides : Prop :=
  ∀ s : State, s.faulted = none →
    exec .busInactive s = .next { s with chip := { s.chip with mode := .inactive }.advanceDivider }

/-- R102, R104: a Read edge puts `RegRead(addr)` in `DA`; a Read tick that is no edge does not. What `RegRead` gives at each
address is stated of the read instructions, which an edge performs (EdgePerformsTheLatchedRegisterOperation). -/
def Obligations.ReadTickActsOnTheEdgeOnly : Prop :=
  ∀ s : State, s.faulted = none →
    let c : Chip := if s.chip.mode = .inactive then { s.chip with da := regRead s.chip.addr s.chip } else s.chip
    exec .busRead s = .next { s with chip := { c with mode := .read }.advanceDivider }

/-- R102, R105, R100 (that the write comes before the mode update and the divider's generator tick is the spec's choice, D2; log
22, unsafe): a Write edge performs `RegWrite(addr, DA)` and then records its mode and advances the divider; a Write tick that
is no edge performs no write. -/
def Obligations.WriteTickActsOnTheEdgeOnly : Prop :=
  ∀ s : State, s.faulted = none →
    (s.chip.mode = .inactive →
      exec .busWrite s = .next { regWrite s.chip.addr s.chip.da s with chip :=
        { (regWrite s.chip.addr s.chip.da s).chip with mode := .write }.advanceDivider }) ∧
    (s.chip.mode ≠ .inactive →
      exec .busWrite s = .next { s with chip := { s.chip with mode := .write }.advanceDivider })

/-- R102, R106: a LatchAddress edge captures `DA[3:0]` in `addr`, and `DA[7:4]` is ignored; a tick that is no edge does not. -/
def Obligations.LatchTickActsOnTheEdgeOnly : Prop :=
  ∀ s : State, s.faulted = none →
    let c : Chip :=
      if s.chip.mode = .inactive then { s.chip with addr := BitVec.ofNat 4 (s.chip.da.toNat % 16) } else s.chip
    exec .busLatch s = .next { s with chip := { c with mode := .latchAddress }.advanceDivider }

/-- R110, R111: the divider counts 16 ticks; on the 16th it returns to 0 and clocks the three tones, the noise generator and
the envelope generator, and changes nothing else. -/
def Obligations.DividerClocksGeneratorsEverySixteenthTick : Prop :=
  ∀ c : Chip,
    (c.div.val ≠ 15 → c.advanceDivider = { c with div := c.div + 1 }) ∧
    (c.div.val = 15 → c.advanceDivider =
      { c with
        div   := 0
        tone  := #v[c.tone[0].clock, c.tone[1].clock, c.tone[2].clock]
        noise := c.noise.clock
        env   := c.env.clock })

/-- R387 (the order of one tick is the spec's choice, D2, log 22; so are the zero period, D5, the shape write's kept counter, D6,
log 23, the bit layouts D9 and D10, log 12, and the envelope's step, D11, log 25): a write on a generator-tick tick is seen by
that generator tick, at every register a generator reads. A counter that expires on the tick reloads with the period just
written (registers 0-6, 11 and 12). After a shape write (register 13) the envelope takes its step from the restart where its
counter expires, and stands at the restart otherwise. -/
def Obligations.WriteIsSeenByTheSameTicksGeneratorTick : Prop :=
  ∀ s : State, s.faulted = none → s.chip.mode = .inactive → s.chip.div = 15 →
    ∃ t, exec .busWrite s = .next t ∧ t.chip.div = 0 ∧
      (∀ c : Channel, s.chip.tone[c].cnt = 1 →
        (s.chip.addr.toNat = 2 * c.val →
          t.chip.tone[c].cnt.toNat = max (s.chip.tone[c].period.toNat / 256 * 256 + s.chip.da.toNat) 1) ∧
        (s.chip.addr.toNat = 2 * c.val + 1 →
          t.chip.tone[c].cnt.toNat = max (s.chip.da.toNat % 16 * 256 + s.chip.tone[c].period.toNat % 256) 1)) ∧
      (s.chip.addr = 6 → s.chip.noise.cnt = 1 → t.chip.noise.cnt.toNat = max (s.chip.da.toNat % 32) 1) ∧
      (s.chip.addr = 11 → s.chip.env.cnt = 1 →
        t.chip.env.cnt.toNat = max (s.chip.env.period.toNat / 256 * 256 + s.chip.da.toNat) 1) ∧
      (s.chip.addr = 12 → s.chip.env.cnt = 1 →
        t.chip.env.cnt.toNat = max (s.chip.da.toNat * 256 + s.chip.env.period.toNat % 256) 1) ∧
      (s.chip.addr = 13 →
        t.chip.env.shape.toNat = s.chip.da.toNat % 16 ∧
        t.chip.env.step = (if s.chip.env.cnt = 1 then 1 else 0) ∧
        t.chip.env.dir = (if s.chip.da.toNat.testBit 2 then .up else .down))

/-! ### Register reads: only `DA` changes -/

/-- R160, R162, R164: the low byte of a tone period. -/
def Obligations.ToneLowReadsReturnPeriodLowByte : Prop :=
  ∀ s : State, s.faulted = none →
    exec .rd0ToneALo s = .next { s with chip := { s.chip with da := BitVec.ofNat 8 (s.chip.tone[0].period.toNat % 256) } } ∧
    exec .rd2ToneBLo s = .next { s with chip := { s.chip with da := BitVec.ofNat 8 (s.chip.tone[1].period.toNat % 256) } } ∧
    exec .rd4ToneCLo s = .next { s with chip := { s.chip with da := BitVec.ofNat 8 (s.chip.tone[2].period.toNat % 256) } }

/-- R161, R163, R165 (the zero high bits are the spec's choice, D25): the high nibble of a tone period, zero-extended. -/
def Obligations.ToneHighReadsReturnPeriodHighNibble : Prop :=
  ∀ s : State, s.faulted = none →
    exec .rd1ToneAHi s = .next { s with chip := { s.chip with da := BitVec.ofNat 8 (s.chip.tone[0].period.toNat / 256) } } ∧
    exec .rd3ToneBHi s = .next { s with chip := { s.chip with da := BitVec.ofNat 8 (s.chip.tone[1].period.toNat / 256) } } ∧
    exec .rd5ToneCHi s = .next { s with chip := { s.chip with da := BitVec.ofNat 8 (s.chip.tone[2].period.toNat / 256) } }

/-- R166, R173 (the zero high bits are the spec's choice, D25): the noise period and the envelope shape, zero-extended. -/
def Obligations.NarrowFieldReadsAreZeroExtended : Prop :=
  ∀ s : State, s.faulted = none →
    exec .rd6NoisePer s = .next { s with chip := { s.chip with da := BitVec.ofNat 8 s.chip.noise.period.toNat } } ∧
    exec .rd13EnvShape s = .next { s with chip := { s.chip with da := BitVec.ofNat 8 s.chip.env.shape.toNat } }

/-- R171, R172: the two bytes of the envelope period. -/
def Obligations.EnvPeriodReadsReturnItsBytes : Prop :=
  ∀ s : State, s.faulted = none →
    exec .rd11EnvLo s = .next { s with chip := { s.chip with da := BitVec.ofNat 8 (s.chip.env.period.toNat % 256) } } ∧
    exec .rd12EnvHi s = .next { s with chip := { s.chip with da := BitVec.ofNat 8 (s.chip.env.period.toNat / 256) } }

/-- R167-R170, R174, R175 (that every write stores its byte is the spec's choice, D7; the ports are storage, D30): the backing
byte. -/
def Obligations.BackingReadsReturnTheStoredByte : Prop :=
  ∀ s : State, s.faulted = none →
    exec .rd7Mixer s = .next { s with chip := { s.chip with da := s.chip.regs[7] } } ∧
    exec .rd8AmpA s = .next { s with chip := { s.chip with da := s.chip.regs[8] } } ∧
    exec .rd9AmpB s = .next { s with chip := { s.chip with da := s.chip.regs[9] } } ∧
    exec .rd10AmpC s = .next { s with chip := { s.chip with da := s.chip.regs[10] } } ∧
    exec .rd14IoA s = .next { s with chip := { s.chip with da := s.chip.regs[14] } } ∧
    exec .rd15IoB s = .next { s with chip := { s.chip with da := s.chip.regs[15] } }

/-! ### Register writes -/

/-- R142, R144, R146 (D5, D7 are the spec's choices): the low byte of the period is replaced, the high nibble, the counter and
the output are kept, and the byte is stored. -/
def Obligations.ToneLowWritesReplacePeriodLowByte : Prop :=
  ∀ s : State, s.faulted = none →
    exec .wr0ToneALo s = .next { s with chip := { s.chip with
      regs := s.chip.regs.set 0 s.chip.da
      tone := s.chip.tone.set 0 { s.chip.tone[0] with
        period := BitVec.ofNat 12 (s.chip.tone[0].period.toNat / 256 * 256 + s.chip.da.toNat) } } } ∧
    exec .wr2ToneBLo s = .next { s with chip := { s.chip with
      regs := s.chip.regs.set 2 s.chip.da
      tone := s.chip.tone.set 1 { s.chip.tone[1] with
        period := BitVec.ofNat 12 (s.chip.tone[1].period.toNat / 256 * 256 + s.chip.da.toNat) } } } ∧
    exec .wr4ToneCLo s = .next { s with chip := { s.chip with
      regs := s.chip.regs.set 4 s.chip.da
      tone := s.chip.tone.set 2 { s.chip.tone[2] with
        period := BitVec.ofNat 12 (s.chip.tone[2].period.toNat / 256 * 256 + s.chip.da.toNat) } } }

/-- R143, R145, R147 (D5, D7 are the spec's choices): the high nibble of the period is replaced by `v[3:0]`, the low byte, the
counter and the output are kept, and the whole byte is stored. -/
def Obligations.ToneHighWritesReplacePeriodHighNibble : Prop :=
  ∀ s : State, s.faulted = none →
    exec .wr1ToneAHi s = .next { s with chip := { s.chip with
      regs := s.chip.regs.set 1 s.chip.da
      tone := s.chip.tone.set 0 { s.chip.tone[0] with
        period := BitVec.ofNat 12 (s.chip.da.toNat % 16 * 256 + s.chip.tone[0].period.toNat % 256) } } } ∧
    exec .wr3ToneBHi s = .next { s with chip := { s.chip with
      regs := s.chip.regs.set 3 s.chip.da
      tone := s.chip.tone.set 1 { s.chip.tone[1] with
        period := BitVec.ofNat 12 (s.chip.da.toNat % 16 * 256 + s.chip.tone[1].period.toNat % 256) } } } ∧
    exec .wr5ToneCHi s = .next { s with chip := { s.chip with
      regs := s.chip.regs.set 5 s.chip.da
      tone := s.chip.tone.set 2 { s.chip.tone[2] with
        period := BitVec.ofNat 12 (s.chip.da.toNat % 16 * 256 + s.chip.tone[2].period.toNat % 256) } } }

/-- R148 (D5, D7, D10 are the spec's choices; log 12): the noise period is `v[4:0]`; the counter and the shift register are kept. -/
def Obligations.NoisePeriodWriteSetsFiveBits : Prop :=
  ∀ s : State, s.faulted = none →
    exec .wr6NoisePer s = .next { s with chip := { s.chip with
      regs  := s.chip.regs.set 6 s.chip.da
      noise := { s.chip.noise with period := BitVec.ofNat 5 (s.chip.da.toNat % 32) } } }

/-- R149, R341 (D7, D19 are the spec's choices): the six enables are the complements of bits 0-5 whatever bits 6-7 hold, the
overrides are kept, the byte is stored, and a byte with bit 6 or 7 set emits the diagnostic. -/
def Obligations.MixerWriteSetsEnablesAndDiagnoses : Prop :=
  ∀ s : State, s.faulted = none →
    exec .wr7Mixer s = .next { s with
      chip := { s.chip with
        regs := s.chip.regs.set 7 s.chip.da
        chan := #v[
          { s.chip.chan[0] with toneEn := !s.chip.da.toNat.testBit 0, noiseEn := !s.chip.da.toNat.testBit 3 },
          { s.chip.chan[1] with toneEn := !s.chip.da.toNat.testBit 1, noiseEn := !s.chip.da.toNat.testBit 4 },
          { s.chip.chan[2] with toneEn := !s.chip.da.toNat.testBit 2, noiseEn := !s.chip.da.toNat.testBit 5 }] }
      diag := if 64 ≤ s.chip.da.toNat then s.diag ++ [.unsupportedConfig 7 s.chip.da] else s.diag }

/-- R150-R152 (the bit layout is the spec's choice from general knowledge, D8; log 12): bit 4 is the mode, bits 3:0 the fixed
volume, and the whole byte is stored. -/
def Obligations.AmplitudeWritesSetModeAndVolume : Prop :=
  ∀ s : State, s.faulted = none →
    exec .wr8AmpA s = .next { s with chip := { s.chip with
      regs := s.chip.regs.set 8 s.chip.da
      amp  := s.chip.amp.set 0
        ⟨if s.chip.da.toNat.testBit 4 then .envelope else .fixed, BitVec.ofNat 4 (s.chip.da.toNat % 16)⟩ } } ∧
    exec .wr9AmpB s = .next { s with chip := { s.chip with
      regs := s.chip.regs.set 9 s.chip.da
      amp  := s.chip.amp.set 1
        ⟨if s.chip.da.toNat.testBit 4 then .envelope else .fixed, BitVec.ofNat 4 (s.chip.da.toNat % 16)⟩ } } ∧
    exec .wr10AmpC s = .next { s with chip := { s.chip with
      regs := s.chip.regs.set 10 s.chip.da
      amp  := s.chip.amp.set 2
        ⟨if s.chip.da.toNat.testBit 4 then .envelope else .fixed, BitVec.ofNat 4 (s.chip.da.toNat % 16)⟩ } }

/-- R153, R154 (D5, D7 are the spec's choices): one byte of the envelope period is replaced; the counter, the step and the
direction are kept. -/
def Obligations.EnvPeriodWritesReplaceOneByte : Prop :=
  ∀ s : State, s.faulted = none →
    exec .wr11EnvLo s = .next { s with chip := { s.chip with
      regs := s.chip.regs.set 11 s.chip.da
      env  := { s.chip.env with
        period := BitVec.ofNat 16 (s.chip.env.period.toNat / 256 * 256 + s.chip.da.toNat) } } } ∧
    exec .wr12EnvHi s = .next { s with chip := { s.chip with
      regs := s.chip.regs.set 12 s.chip.da
      env  := { s.chip.env with
        period := BitVec.ofNat 16 (s.chip.da.toNat * 256 + s.chip.env.period.toNat % 256) } } }

/-- R155, R241 (D6, D7, D9 are the spec's choices; log 12): the shape is `v[3:0]` and the envelope restarts at step 0 in the direction
of the attack bit, on every write; the counter and the period are kept. -/
def Obligations.EnvShapeWriteRestartsTheEnvelope : Prop :=
  ∀ s : State, s.faulted = none →
    exec .wr13EnvShape s = .next { s with chip := { s.chip with
      regs := s.chip.regs.set 13 s.chip.da
      env  := { s.chip.env with
        shape := BitVec.ofNat 4 (s.chip.da.toNat % 16)
        step  := 0
        dir   := if s.chip.da.toNat.testBit 2 then .up else .down } } }

/-- R156, R157 (D30 is the spec's choice): the port registers are storage alone. -/
def Obligations.IoPortWritesStoreTheByte : Prop :=
  ∀ s : State, s.faulted = none →
    exec .wr14IoA s = .next { s with chip := { s.chip with regs := s.chip.regs.set 14 s.chip.da } } ∧
    exec .wr15IoB s = .next { s with chip := { s.chip with regs := s.chip.regs.set 15 s.chip.da } }

/-! ### Whole-machine frames, over every instruction -/

/-- R343 (D20 is the spec's choice): every instruction completes on a chip that is not faulted, and is refused on one that
is; so is every step. -/
def Obligations.InstructionsCompleteUnlessFaulted : Prop :=
  (∀ (i : Instr) (s : State), s.faulted = none → ∃ t, exec i s = .next t) ∧
  (∀ (i : Instr) (s : State) (k : Fault), s.faulted = some k → exec i s = .refused (.chipFaulted k)) ∧
  (∀ (s : State) (k : Fault), s.faulted = some k → step s = .refused (.chipFaulted k))

/-- R24, R30, R343: no instruction writes a debug override flag, and one that answers a next state leaves the marker as it was
(the marker is the spec's choice, D20, log 9). None touches the model's own fields: the host's requests (log 1), what was
returned to the host (log 10), and the machine's seed (log 4). -/
def Obligations.InstructionsKeepOverridesAndHostSide : Prop :=
  ∀ (i : Instr) (s t : State), exec i s = .next t →
    t.faulted = s.faulted ∧ t.pending = s.pending ∧ t.replies = s.replies ∧ t.seed = s.seed ∧
    ∀ c : Channel, t.chip.chan[c].toneOvr = s.chip.chan[c].toneOvr ∧ t.chip.chan[c].noiseOvr = s.chip.chan[c].noiseOvr

/-- R22, R60, R141: a byte of the register file changes only where a write stores to it. A write instruction stores `DA` at its
own address, a Write edge at the latched address; every other byte, and every byte for every other instruction and tick,
reads as before. -/
def Obligations.RegisterFileFrame : Prop :=
  ∀ (i : Instr) (s t : State), exec i s = .next t → ∀ a : Addr,
    t.chip.reg a =
      if (encode i = ⟨.regop, 16 + a.toNat⟩) ∨ (i = .busWrite ∧ s.chip.mode = Mode.inactive ∧ s.chip.addr = a)
      then s.chip.da else s.chip.reg a

/-- R35, R67, R141 (that no write touches a counter or an output is the spec's choice, D5): a register operation leaves the
mode, the address, the divider, and every generator's counter and output as they were; and only the shape write touches the
envelope's position. -/
def Obligations.RegisterOperationsLeaveGeneratorsRunning : Prop :=
  ∀ (i : Instr) (s t : State), (encode i).format = .regop → exec i s = .next t →
    t.chip.mode = s.chip.mode ∧ t.chip.addr = s.chip.addr ∧ t.chip.div = s.chip.div ∧
    (∀ c : Channel, t.chip.tone[c].cnt = s.chip.tone[c].cnt ∧ t.chip.tone[c].out = s.chip.tone[c].out) ∧
    t.chip.noise.cnt = s.chip.noise.cnt ∧ t.chip.noise.lfsr = s.chip.noise.lfsr ∧
    t.chip.env.cnt = s.chip.env.cnt ∧
    (i ≠ .wr13EnvShape → t.chip.env.shape = s.chip.env.shape ∧ t.chip.env.step = s.chip.env.step ∧
      t.chip.env.dir = s.chip.env.dir)

/-- R106, R384, R24, R30: the latched address changes only on a LatchAddress edge, to the low four bits of `DA`; the enable
flags change only by a mixer write, the instruction or a Write edge at address 7; and an amplitude control changes only by a
write at its own address 8, 9 or 10. -/
def Obligations.AddressEnablesAndAmplitudesHaveOneWriter : Prop :=
  ∀ (i : Instr) (s t : State), exec i s = .next t →
    (t.chip.addr = if i = .busLatch ∧ s.chip.mode = Mode.inactive then BitVec.ofNat 4 s.chip.da.toNat else s.chip.addr) ∧
    (i ≠ .wr7Mixer → ¬(i = .busWrite ∧ s.chip.mode = .inactive ∧ s.chip.addr = 7) →
      ∀ c : Channel, t.chip.chan[c].toneEn = s.chip.chan[c].toneEn ∧ t.chip.chan[c].noiseEn = s.chip.chan[c].noiseEn) ∧
    (∀ c : Channel, encode i ≠ ⟨.regop, 24 + c.val⟩ →
      ¬(i = .busWrite ∧ s.chip.mode = .inactive ∧ s.chip.addr.toNat = 8 + c.val) → t.chip.amp[c] = s.chip.amp[c])

/-- R341 (its code and its delivery are the spec's choices, D19): a diagnostic is emitted exactly by a write to register 7 with
bit 6 or 7 set, the instruction or a Write edge; it is appended after the earlier ones; nothing else changes the list. -/
def Obligations.DiagnosticComesFromTheMixerAlone : Prop :=
  ∀ (i : Instr) (s t : State), exec i s = .next t →
    t.diag =
      if (i = .wr7Mixer ∨ (i = .busWrite ∧ s.chip.mode = .inactive ∧ s.chip.addr = 7)) ∧ 64 ≤ s.chip.da.toNat
      then s.diag ++ [.unsupportedConfig 7 s.chip.da] else s.diag

/-! ### Faults -/

/-- R342 (the presented word's type is the model's own, log 8): a line word that is none of the four modes raises the invariant
violation with that word, and no mode is picked for it. -/
def Obligations.WordOutsideTheModesRaisesTheFault : Prop :=
  ∀ (s : State) (w : Nat) (ws : List Nat) (rest : List HostOp), s.faulted = none → 4 ≤ w →
    step { s with pending := .update (w :: ws) :: rest } = .fault (.invariantViolation w)

/-- R343, R347 (D20 is the spec's choice): a fault sets the terminal marker and nothing else, and the faulted state is
absorbing. -/
def Obligations.FaultedStateIsAbsorbing : Prop :=
  ∀ (s : State) (k : Fault), step s = .fault k →
    s.settle (step s) = { s with faulted := some k } ∧
    ∀ n : Nat, (s.settle (step s)).runSettled n = s.settle (step s)

/-- R342: with the lines the hardware's interface can present, every step completes, no fault and no refusal can occur, and the
requests that remain are again such requests. -/
def Obligations.WellFormedRequestsNeverFault : Prop :=
  ∀ s : State, s.faulted = none → s.requestsWf = true →
    ∃ t, step s = .next t ∧ t.faulted = none ∧ t.requestsWf = true

/-! ### The invariant -/

/-- R31: every step keeps the invariants: the down-counters stay at least 1, the shift register is never zero, and the direction
is the one the shape and the step give. -/
def Obligations.EveryStepKeepsTheChipInvariant : Prop :=
  ∀ s t : State, s.chip.Inv → step s = .next t → t.chip.Inv

/-- R31, R36: the invariants hold right after reset, whatever the seed, and the first requests are well formed. -/
def Obligations.ResetMeetsTheChipInvariant : Prop :=
  (∀ seed : NoiseSeed, (Chip.reset seed).Inv) ∧ State.reset.chip.Inv ∧ State.reset.requestsWf = true

/-! ### Update -/

/-- R312 (D18 is the spec's choice): `Update(n, lines)` runs its `n` ticks in the order of its lines before any other request,
and then `div` has advanced by `n` modulo 16 (R110); `Update(0)` changes nothing but the list of requests. -/
def Obligations.UpdateRunsItsTicksInOrder : Prop :=
  ∀ (s : State) (ws : List Nat) (rest : List HostOp), s.faulted = none → (∀ w ∈ ws, w < 4) →
    (ws ≠ [] → ∃ t,
      runTicks ws { s with pending := rest } = .next t ∧
      Host.Core.run core ws.length { s with pending := .update ws :: rest } = .next t ∧
      t.pending = rest ∧ t.chip.div.val = (s.chip.div.val + ws.length) % 16) ∧
    step { s with pending := .update [] :: rest } = .next { s with pending := rest }

/-! ### Tone generators -/

/-- R201: the counter is decremented; on reaching zero it is reloaded to max(period, 1) and the output flips. -/
def Obligations.ToneClockCountsAndFlipsOnExpiry : Prop :=
  ∀ t : Tone, 1 ≤ t.cnt.toNat →
    (t.cnt.toNat ≠ 1 → t.clock.cnt.toNat = t.cnt.toNat - 1 ∧ t.clock.out = t.out ∧ t.clock.period = t.period) ∧
    (t.cnt.toNat = 1 → t.clock.cnt.toNat = max t.period.toNat 1 ∧ t.clock.out = !t.out ∧ t.clock.period = t.period)

/-- R203: with a constant period p >= 1 and a count in 1..p, 2p clocks give the generator back as it was, and the output toggles
exactly twice on the way, at the clocks `cnt` and `cnt + p`. -/
def Obligations.ToneIsPeriodicWithTwoToggles : Prop :=
  ∀ t : Tone, 1 ≤ t.cnt.toNat → t.cnt.toNat ≤ t.period.toNat →
    Nat.iterate Tone.clock (2 * t.period.toNat) t = t ∧
    ∀ k < 2 * t.period.toNat,
      ((Nat.iterate Tone.clock (k + 1) t).out ≠ (Nat.iterate Tone.clock k t).out ↔
        (k + 1 = t.cnt.toNat ∨ k + 1 = t.cnt.toNat + t.period.toNat))

/-- R204, R221, R244 (D5 is the spec's choice): in all three kinds of generator a period of 0 behaves as a period of 1 over any
number of clocks. -/
def Obligations.ZeroPeriodBehavesAsOne : Prop :=
  (∀ (t : Tone) (n : Nat),
    (Nat.iterate Tone.clock n { t with period := 0 }).cnt = (Nat.iterate Tone.clock n { t with period := 1 }).cnt ∧
    (Nat.iterate Tone.clock n { t with period := 0 }).out = (Nat.iterate Tone.clock n { t with period := 1 }).out) ∧
  (∀ (g : Noise) (n : Nat),
    (Nat.iterate Noise.clock n { g with period := 0 }).cnt = (Nat.iterate Noise.clock n { g with period := 1 }).cnt ∧
    (Nat.iterate Noise.clock n { g with period := 0 }).lfsr = (Nat.iterate Noise.clock n { g with period := 1 }).lfsr) ∧
  (∀ (e : Env) (n : Nat),
    (Nat.iterate Env.clock n { e with period := 0 }).cnt = (Nat.iterate Env.clock n { e with period := 1 }).cnt ∧
    (Nat.iterate Env.clock n { e with period := 0 }).step = (Nat.iterate Env.clock n { e with period := 1 }).step ∧
    (Nat.iterate Env.clock n { e with period := 0 }).dir = (Nat.iterate Env.clock n { e with period := 1 }).dir)

/-! ### Noise generator -/

/-- R221: the counter is decremented; on reaching zero it is reloaded to max(period, 1) and the register shifts right by one with
bit 0 XOR bit 3 entering bit 16. -/
def Obligations.NoiseClockCountsAndShiftsOnExpiry : Prop :=
  ∀ g : Noise, 1 ≤ g.cnt.toNat →
    (g.cnt.toNat ≠ 1 → g.clock.cnt.toNat = g.cnt.toNat - 1 ∧ g.clock.lfsr = g.lfsr ∧ g.clock.period = g.period) ∧
    (g.cnt.toNat = 1 → g.clock.cnt.toNat = max g.period.toNat 1 ∧ g.clock.period = g.period ∧
      g.clock.lfsr.toNat =
        (if g.lfsr.toNat.testBit 0 = g.lfsr.toNat.testBit 3 then 0 else 65536) + g.lfsr.toNat / 2)

/-- R225: from any non-zero state the shift register returns to that state after exactly 131071 shifts, and never earlier. -/
def Obligations.LfsrSequenceIsMaximalLength : Prop :=
  ∀ x : BitVec 17, x ≠ 0 →
    Nat.iterate lfsrNext 131071 x = x ∧ ∀ n, 0 < n → n < 131071 → Nat.iterate lfsrNext n x ≠ x

/-! ### Envelope generator -/

/-- R241, R242, R243, R245 (the exact machine is the spec's choice, D11): the restart, the level, the hold step of each shape
class, and one step: nothing while holding, else the step advances modulo 32 and an alternating continuing shape reverses its
direction where the position within the ramp returns to 0. -/
def Obligations.EnvStepFollowsTheShape : Prop :=
  ∀ e : Env,
    (e.restart.step = 0 ∧ e.restart.dir = (if e.shape.toNat.testBit 2 then .up else .down) ∧
      e.restart.cnt = e.cnt ∧ e.restart.period = e.period ∧ e.restart.shape = e.shape) ∧
    e.level.toNat = (if e.dir = .up then e.step.toNat % 16 else 15 - e.step.toNat % 16) ∧
    (e.holding = true ↔
      (e.step.toNat = 15 ∧ (e.shape.toNat.testBit 3 = false ∨
        (e.shape.toNat.testBit 0 = true ∧ e.shape.toNat.testBit 1 = false))) ∨
      (e.step.toNat = 31 ∧ e.shape.toNat.testBit 3 = true ∧
        e.shape.toNat.testBit 0 = true ∧ e.shape.toNat.testBit 1 = true)) ∧
    (e.holding = true → e.advance = e) ∧
    (e.holding = false →
      e.advance.step.toNat = (e.step.toNat + 1) % 32 ∧
      (e.advance.dir ≠ e.dir ↔
        e.shape.toNat.testBit 3 = true ∧ e.shape.toNat.testBit 1 = true ∧ (e.step.toNat + 1) % 16 = 0) ∧
      e.advance.cnt = e.cnt ∧ e.advance.period = e.period ∧ e.advance.shape = e.shape)

/-- R244 (D5 is the spec's choice): the counter is decremented; on reaching zero it is reloaded to max(period, 1) and one step is
taken. -/
def Obligations.EnvClockCountsAndStepsOnExpiry : Prop :=
  ∀ e : Env, 1 ≤ e.cnt.toNat →
    (e.cnt.toNat ≠ 1 → e.clock.cnt.toNat = e.cnt.toNat - 1 ∧ e.clock.step = e.step ∧ e.clock.dir = e.dir ∧
      e.clock.shape = e.shape ∧ e.clock.period = e.period) ∧
    (e.cnt.toNat = 1 → e.clock.cnt.toNat = max e.period.toNat 1 ∧ e.clock.step = e.advance.step ∧
      e.clock.dir = e.advance.dir ∧ e.clock.shape = e.shape ∧ e.clock.period = e.period)

/-- R246 (D11 is the spec's choice): the level after the restart and `k` steps, for each class of shapes. A one-shot (C = 0) and a
held single ramp (C = 1, H = 1, Al = 0) show one ramp and hold its end; a sawtooth repeats its ramp of 16; a triangle repeats
32 steps; a held triangle shows one pass of 32 and holds its end. At chooses up or down first. -/
def Obligations.EnvelopeLevelsOfTheSixteenShapes : Prop :=
  ∀ (e : Env) (k : Nat),
    let C := e.shape.toNat.testBit 3
    let At := e.shape.toNat.testBit 2
    let Al := e.shape.toNat.testBit 1
    let H := e.shape.toNat.testBit 0
    let level := (Nat.iterate Env.advance k e.restart).level.toNat
    let ramp := fun n : Nat => if At then n else 15 - n
    let triangle := fun n : Nat => if n < 16 then ramp n else ramp (31 - n)
    ((C = false ∨ (H = true ∧ Al = false)) → level = ramp (min k 15)) ∧
    ((C = true ∧ H = false ∧ Al = false) → level = ramp (k % 16)) ∧
    ((C = true ∧ H = false ∧ Al = true) → level = triangle (k % 32)) ∧
    ((C = true ∧ H = true ∧ Al = true) → level = triangle (min k 31))

/-- R226, R247: with a constant period p >= 1 and a count of p at the start, the shift register shifts, and the envelope steps,
once every p clocks; between them nothing but the counter changes. -/
def Obligations.ShiftsAndStepsComeOncePerPeriod : Prop :=
  (∀ (g : Noise) (k : Nat), 1 ≤ g.period.toNat → g.cnt = g.period →
    (Nat.iterate Noise.clock k g).lfsr = Nat.iterate lfsrNext (k / g.period.toNat) g.lfsr ∧
    (Nat.iterate Noise.clock k g).cnt.toNat = g.period.toNat - k % g.period.toNat) ∧
  (∀ (e : Env) (k : Nat), 1 ≤ e.period.toNat → e.cnt = e.period →
    (Nat.iterate Env.clock k e).step = (Nat.iterate Env.advance (k / e.period.toNat) e).step ∧
    (Nat.iterate Env.clock k e).dir = (Nat.iterate Env.advance (k / e.period.toNat) e).dir ∧
    (Nat.iterate Env.clock k e).cnt.toNat = e.period.toNat - k % e.period.toNat)

/-- R248: once holding, the step, the direction and the level stay, and so does the hold, over any number of clocks, whatever the
period is set to. -/
def Obligations.HeldLevelIsFrozen : Prop :=
  ∀ (e : Env) (n : Nat) (p : BitVec 16), e.holding = true →
    let f := Nat.iterate Env.clock n { e with period := p }
    f.step = e.step ∧ f.dir = e.dir ∧ f.level = e.level ∧ f.holding = true

/-! ### Amplitude, gate and sample -/

/-- R280: the fixed volume in Fixed mode, and in Envelope mode the shared level, the same for every such channel. -/
def Obligations.VolumeIsFixedOrTheSharedLevel : Prop :=
  ∀ (c : Chip) (i : Channel),
    (c.amp[i].mode = .fixed → c.volume i = c.amp[i].vol) ∧ (c.amp[i].mode = .envelope → c.volume i = c.env.level)

/-- R282: a disabled signal counts as 1, an override counts as an enable, and the gate is the AND of both signals. -/
def Obligations.GateIsToneAndNoise : Prop :=
  ∀ (c : Chip) (i : Channel),
    (c.gate i = true ↔
      (c.tone[i].out = true ∨ (c.chan[i].toneEn = false ∧ c.chan[i].toneOvr = false)) ∧
      (c.noise.lfsr.toNat % 2 = 1 ∨ (c.chan[i].noiseEn = false ∧ c.chan[i].noiseOvr = false)))

/-- R283: the gate chooses the sign of the volume, and the channel sample is that number over 15, in [-1, 1]. -/
def Obligations.ChannelSampleIsSignedVolume : Prop :=
  ∀ (c : Chip) (i : Channel),
    (c.gate i = true → c.chanNum i = (c.volume i).toNat) ∧
    (c.gate i = false → c.chanNum i = -((c.volume i).toNat : Int)) ∧
    -15 ≤ c.chanNum i ∧ c.chanNum i ≤ 15 ∧
    c.chanSample i = (c.chanNum i : Rat) / 15 ∧ -1 ≤ c.chanSample i ∧ c.chanSample i ≤ 1

/-- R284: the numerator is the sum of the three channels', in -45..45; the chip sample is the mean of the three channel samples,
the numerator over 45; and neither depends on the divider. -/
def Obligations.ChipSampleIsTheMeanOfTheChannels : Prop :=
  ∀ c : Chip,
    c.sampleNum = c.chanNum 0 + c.chanNum 1 + c.chanNum 2 ∧ -45 ≤ c.sampleNum ∧ c.sampleNum ≤ 45 ∧
    c.psgSample = (c.chanSample 0 + c.chanSample 1 + c.chanSample 2) / 3 ∧
    c.psgSample = (c.sampleNum : Rat) / 45 ∧
    ∀ d : Fin 16, ({ c with div := d } : Chip).sampleNum = c.sampleNum

/-! ### Host operations -/

/-- R310 (that `DA` is one cell is the spec's choice, D24, log 24): `WriteDA(v)` sets `DA` and nothing else of the chip. The list
of requests is the model's own (log 1). -/
def Obligations.WriteDaSetsTheDataBusAlone : Prop :=
  ∀ (s : State) (v : Byte) (rest : List HostOp), s.faulted = none → s.pending = .writeDA v :: rest →
    step s = .next { s with pending := rest, chip := { s.chip with da := v } }

/-- R311, R317: `ReadDA` and the debug accessors return their values and change nothing of the chip. The lists of requests and of
returned values are the model's own (logs 1 and 10). -/
def Obligations.ReadDaAndAccessorsChangeNothing : Prop :=
  ∀ (s : State) (rest : List HostOp) (c : Channel), s.faulted = none →
    step { s with pending := .readDA :: rest } =
      .next { s with pending := rest, replies := s.replies ++ [.byte s.chip.da] } ∧
    step { s with pending := .dbgToneBit c :: rest } =
      .next { s with pending := rest, replies := s.replies ++ [.toneBit c s.chip.tone[c].out] } ∧
    step { s with pending := .dbgNoiseBit :: rest } =
      .next { s with pending := rest, replies := s.replies ++ [.noiseBit (s.chip.noise.lfsr.toNat.testBit 0)] } ∧
    step { s with pending := .dbgEnvLevel :: rest } =
      .next { s with pending := rest, replies := s.replies ++ [.envLevel s.chip.env.level] } ∧
    step { s with pending := .dbgVolume c :: rest } =
      .next { s with pending := rest, replies := s.replies ++ [.volume c (s.chip.volume c)] }

/-- R313, R285 (`FLOAT_OF` is free, log 5, and so is the sign of a zero, log 6): `Sample` returns the exact numerator and the
host float, which is `FLOAT_OF(SampleNum)` where the numerator is not 0, and `FLOAT_OF(0)` or the negative zero where it is; it
changes nothing of the chip. The lists of requests and of returned values are the model's own (logs 1 and 10). -/
def Obligations.SampleReturnsTheMixAndChangesNothing : Prop :=
  ∀ (s : State) (rest : List HostOp), s.faulted = none →
    ∃ f : HostFloat, (s.chip.sampleNum ≠ 0 → f = Config.floatOf s.chip.sampleNum) ∧
      (s.chip.sampleNum = 0 → f = Config.floatOf 0 ∨ f = Config.negativeZero) ∧
      step { s with pending := .sample :: rest } =
        .next { s with pending := rest, replies := s.replies ++ [.sample s.chip.sampleNum f] }

/-- R316: the override setters write their own flag of their own channel and nothing else. The list of requests is the model's
own (log 1). -/
def Obligations.OverrideSettersWriteOneFlag : Prop :=
  ∀ (s : State) (rest : List HostOp) (c : Channel) (b : Bool), s.faulted = none →
    step { s with pending := .setToneOverride c b :: rest } =
      .next { s with pending := rest, chip := { s.chip with
        chan := s.chip.chan.set c.val { s.chip.chan[c] with toneOvr := b } } } ∧
    step { s with pending := .setNoiseOverride c b :: rest } =
      .next { s with pending := rest, chip := { s.chip with
        chan := s.chip.chan.set c.val { s.chip.chan[c] with noiseOvr := b } } }

/-- R354 (log 14), R74, R318 (log 18): with no request the chip keeps its state; a request the spec has no meaning for is refused by name. -/
def Obligations.IdleKeepsStateAndMisuseIsRefused : Prop :=
  ∀ s : State, s.faulted = none →
    (s.pending = [] → step s = .next s) ∧
    (∀ (m : HostMisuse) (rest : List HostOp), s.pending = .misuse m :: rest → step s = .refused (.hostMisuse m))

/-! ### Reset -/

/-- R370, R36, R37 (the values D3, D4, D12-D16 are the spec's choices, the seed's default D14; logs 4 and 11): `Reset` sets every
field of the chip record to its reset value and leaves the diagnostic list alone; a constructed machine has the same chip. -/
def Obligations.ResetSetsEveryFieldOfTheChip : Prop :=
  (∀ (s : State) (rest : List HostOp), s.faulted = none → s.pending = .reset :: rest →
    step s = .next { s with
      pending := rest
      chip := {
        mode := .inactive, addr := 0, da := 0, div := 0
        regs := #v[0, 0, 0, 0, 0, 0, 0, 0, 0, 0, 0, 0, 0, 0, 0, 0]
        tone := #v[⟨0, 1, false⟩, ⟨0, 1, false⟩, ⟨0, 1, false⟩]
        noise := ⟨0, 1, s.seed.val⟩
        env := ⟨0, 1, 0, 0, .down⟩
        amp := #v[⟨.fixed, 0⟩, ⟨.fixed, 0⟩, ⟨.fixed, 0⟩]
        chan := #v[⟨false, false, false, false⟩, ⟨false, false, false, false⟩, ⟨false, false, false, false⟩] } }) ∧
  State.reset.chip.noise.lfsr = 1 ∧
  ∀ s : State, s.faulted = none → s.seed = State.reset.seed → s.pending = [.reset] →
    ∃ t, step s = .next t ∧ t.chip = State.reset.chip

/-- R371: after `Reset`, whatever came before, the same requests give the same chip, the same returned values and the same
diagnostics as on a freshly constructed machine with the same seed. That construction gives the reset state is the spec's choice
(D27, log 27), and so is the clearing of the overrides (D16, log 11); the lists of requests and of returned values are the
model's own (logs 1 and 10). -/
def Obligations.ResetForgetsEverythingBefore : Prop :=
  ∀ (s : State) (ops : List HostOp) (n : Nat) (t : State), s.faulted = none →
    Host.Core.run core n { State.construct s.seed with pending := ops } = .next t →
    Host.Core.run core (n + 1) { s with pending := .reset :: ops } =
      .next { t with diag := s.diag ++ t.diag, replies := s.replies ++ t.replies }
end

