-- ==== Sys2Proof/Laws/State.lean ====
section
/-! SUPPORT. One lemma per field per update of the state and of the chip record, each true by rfl. -/

namespace Sys2Proof.Machine

@[simp] theorem onChip_chip (s : State) (f : Chip → Chip) : (s.onChip f).chip = f s.chip := rfl
@[simp] theorem onChip_diag (s : State) (f : Chip → Chip) : (s.onChip f).diag = s.diag := rfl
@[simp] theorem onChip_faulted (s : State) (f : Chip → Chip) : (s.onChip f).faulted = s.faulted := rfl
@[simp] theorem onChip_pending (s : State) (f : Chip → Chip) : (s.onChip f).pending = s.pending := rfl
@[simp] theorem onChip_replies (s : State) (f : Chip → Chip) : (s.onChip f).replies = s.replies := rfl
@[simp] theorem onChip_seed (s : State) (f : Chip → Chip) : (s.onChip f).seed = s.seed := rfl

@[simp] theorem emit_chip (s : State) (d : Diag) : (s.emit d).chip = s.chip := rfl
@[simp] theorem emit_diag (s : State) (d : Diag) : (s.emit d).diag = s.diag ++ [d] := rfl
@[simp] theorem emit_faulted (s : State) (d : Diag) : (s.emit d).faulted = s.faulted := rfl
@[simp] theorem emit_pending (s : State) (d : Diag) : (s.emit d).pending = s.pending := rfl
@[simp] theorem emit_replies (s : State) (d : Diag) : (s.emit d).replies = s.replies := rfl
@[simp] theorem emit_seed (s : State) (d : Diag) : (s.emit d).seed = s.seed := rfl

@[simp] theorem reply_chip (s : State) (r : Reply) : (s.reply r).chip = s.chip := rfl
@[simp] theorem reply_diag (s : State) (r : Reply) : (s.reply r).diag = s.diag := rfl
@[simp] theorem reply_faulted (s : State) (r : Reply) : (s.reply r).faulted = s.faulted := rfl
@[simp] theorem reply_pending (s : State) (r : Reply) : (s.reply r).pending = s.pending := rfl
@[simp] theorem reply_replies (s : State) (r : Reply) : (s.reply r).replies = s.replies ++ [r] := rfl
@[simp] theorem reply_seed (s : State) (r : Reply) : (s.reply r).seed = s.seed := rfl

@[simp] theorem setReg_regs (c : Chip) (a : Addr) (v : Byte) : (c.setReg a v).regs = c.regs.set a.toNat v a.isLt := rfl
@[simp] theorem setReg_mode (c : Chip) (a : Addr) (v : Byte) : (c.setReg a v).mode = c.mode := rfl
@[simp] theorem setReg_addr (c : Chip) (a : Addr) (v : Byte) : (c.setReg a v).addr = c.addr := rfl
@[simp] theorem setReg_da (c : Chip) (a : Addr) (v : Byte) : (c.setReg a v).da = c.da := rfl
@[simp] theorem setReg_div (c : Chip) (a : Addr) (v : Byte) : (c.setReg a v).div = c.div := rfl
@[simp] theorem setReg_tone (c : Chip) (a : Addr) (v : Byte) : (c.setReg a v).tone = c.tone := rfl
@[simp] theorem setReg_noise (c : Chip) (a : Addr) (v : Byte) : (c.setReg a v).noise = c.noise := rfl
@[simp] theorem setReg_env (c : Chip) (a : Addr) (v : Byte) : (c.setReg a v).env = c.env := rfl
@[simp] theorem setReg_amp (c : Chip) (a : Addr) (v : Byte) : (c.setReg a v).amp = c.amp := rfl
@[simp] theorem setReg_chan (c : Chip) (a : Addr) (v : Byte) : (c.setReg a v).chan = c.chan := rfl

@[simp] theorem mapTone_tone (c : Chip) (i : Channel) (f : Tone → Tone) :
    (c.mapTone i f).tone = c.tone.set i.val (f c.tone[i]) := rfl
@[simp] theorem mapTone_mode (c : Chip) (i : Channel) (f : Tone → Tone) : (c.mapTone i f).mode = c.mode := rfl
@[simp] theorem mapTone_addr (c : Chip) (i : Channel) (f : Tone → Tone) : (c.mapTone i f).addr = c.addr := rfl
@[simp] theorem mapTone_da (c : Chip) (i : Channel) (f : Tone → Tone) : (c.mapTone i f).da = c.da := rfl
@[simp] theorem mapTone_regs (c : Chip) (i : Channel) (f : Tone → Tone) : (c.mapTone i f).regs = c.regs := rfl
@[simp] theorem mapTone_div (c : Chip) (i : Channel) (f : Tone → Tone) : (c.mapTone i f).div = c.div := rfl
@[simp] theorem mapTone_noise (c : Chip) (i : Channel) (f : Tone → Tone) : (c.mapTone i f).noise = c.noise := rfl
@[simp] theorem mapTone_env (c : Chip) (i : Channel) (f : Tone → Tone) : (c.mapTone i f).env = c.env := rfl
@[simp] theorem mapTone_amp (c : Chip) (i : Channel) (f : Tone → Tone) : (c.mapTone i f).amp = c.amp := rfl
@[simp] theorem mapTone_chan (c : Chip) (i : Channel) (f : Tone → Tone) : (c.mapTone i f).chan = c.chan := rfl

@[simp] theorem mapAmp_amp (c : Chip) (i : Channel) (f : Amp → Amp) :
    (c.mapAmp i f).amp = c.amp.set i.val (f c.amp[i]) := rfl
@[simp] theorem mapAmp_mode (c : Chip) (i : Channel) (f : Amp → Amp) : (c.mapAmp i f).mode = c.mode := rfl
@[simp] theorem mapAmp_addr (c : Chip) (i : Channel) (f : Amp → Amp) : (c.mapAmp i f).addr = c.addr := rfl
@[simp] theorem mapAmp_da (c : Chip) (i : Channel) (f : Amp → Amp) : (c.mapAmp i f).da = c.da := rfl
@[simp] theorem mapAmp_regs (c : Chip) (i : Channel) (f : Amp → Amp) : (c.mapAmp i f).regs = c.regs := rfl
@[simp] theorem mapAmp_div (c : Chip) (i : Channel) (f : Amp → Amp) : (c.mapAmp i f).div = c.div := rfl
@[simp] theorem mapAmp_tone (c : Chip) (i : Channel) (f : Amp → Amp) : (c.mapAmp i f).tone = c.tone := rfl
@[simp] theorem mapAmp_noise (c : Chip) (i : Channel) (f : Amp → Amp) : (c.mapAmp i f).noise = c.noise := rfl
@[simp] theorem mapAmp_env (c : Chip) (i : Channel) (f : Amp → Amp) : (c.mapAmp i f).env = c.env := rfl
@[simp] theorem mapAmp_chan (c : Chip) (i : Channel) (f : Amp → Amp) : (c.mapAmp i f).chan = c.chan := rfl

@[simp] theorem mapChan_chan (c : Chip) (i : Channel) (f : Chan → Chan) :
    (c.mapChan i f).chan = c.chan.set i.val (f c.chan[i]) := rfl
@[simp] theorem mapChan_mode (c : Chip) (i : Channel) (f : Chan → Chan) : (c.mapChan i f).mode = c.mode := rfl
@[simp] theorem mapChan_addr (c : Chip) (i : Channel) (f : Chan → Chan) : (c.mapChan i f).addr = c.addr := rfl
@[simp] theorem mapChan_da (c : Chip) (i : Channel) (f : Chan → Chan) : (c.mapChan i f).da = c.da := rfl
@[simp] theorem mapChan_regs (c : Chip) (i : Channel) (f : Chan → Chan) : (c.mapChan i f).regs = c.regs := rfl
@[simp] theorem mapChan_div (c : Chip) (i : Channel) (f : Chan → Chan) : (c.mapChan i f).div = c.div := rfl
@[simp] theorem mapChan_tone (c : Chip) (i : Channel) (f : Chan → Chan) : (c.mapChan i f).tone = c.tone := rfl
@[simp] theorem mapChan_noise (c : Chip) (i : Channel) (f : Chan → Chan) : (c.mapChan i f).noise = c.noise := rfl
@[simp] theorem mapChan_env (c : Chip) (i : Channel) (f : Chan → Chan) : (c.mapChan i f).env = c.env := rfl
@[simp] theorem mapChan_amp (c : Chip) (i : Channel) (f : Chan → Chan) : (c.mapChan i f).amp = c.amp := rfl

@[simp] theorem withMixer_toneOvr (ch : Chan) (v : Byte) (n : Nat) : (ch.withMixer v n).toneOvr = ch.toneOvr := rfl
@[simp] theorem withMixer_noiseOvr (ch : Chan) (v : Byte) (n : Nat) : (ch.withMixer v n).noiseOvr = ch.noiseOvr := rfl
@[simp] theorem withMixer_toneEn (ch : Chan) (v : Byte) (n : Nat) : (ch.withMixer v n).toneEn = toneEnable v n := rfl
@[simp] theorem withMixer_noiseEn (ch : Chan) (v : Byte) (n : Nat) : (ch.withMixer v n).noiseEn = noiseEnable v n := rfl

@[simp] theorem restart_period (e : Env) : e.restart.period = e.period := rfl
@[simp] theorem restart_cnt (e : Env) : e.restart.cnt = e.cnt := rfl
@[simp] theorem restart_shape (e : Env) : e.restart.shape = e.shape := rfl
@[simp] theorem restart_step (e : Env) : e.restart.step = 0 := rfl

@[simp] theorem generatorTick_mode (c : Chip) : c.generatorTick.mode = c.mode := rfl
@[simp] theorem generatorTick_addr (c : Chip) : c.generatorTick.addr = c.addr := rfl
@[simp] theorem generatorTick_da (c : Chip) : c.generatorTick.da = c.da := rfl
@[simp] theorem generatorTick_regs (c : Chip) : c.generatorTick.regs = c.regs := rfl
@[simp] theorem generatorTick_div (c : Chip) : c.generatorTick.div = c.div := rfl
@[simp] theorem generatorTick_tone (c : Chip) :
    c.generatorTick.tone = #v[c.tone[0].clock, c.tone[1].clock, c.tone[2].clock] := rfl
@[simp] theorem generatorTick_noise (c : Chip) : c.generatorTick.noise = c.noise.clock := rfl
@[simp] theorem generatorTick_env (c : Chip) : c.generatorTick.env = c.env.clock := rfl
@[simp] theorem generatorTick_amp (c : Chip) : c.generatorTick.amp = c.amp := rfl
@[simp] theorem generatorTick_chan (c : Chip) : c.generatorTick.chan = c.chan := rfl

end Sys2Proof.Machine
end

