-- ==== Sys2Proof/Laws/Ops.lean ====
section
/-! SUPPORT. For each shared operation, the lemma that says once what it can do. -/

namespace Sys2Proof.Machine

/-- A running transition answers a next state exactly when the chip is not faulted, and then it is the function's. -/
theorem running_eq_next {s t : State} {f : State → State} :
    s.running f = .next t ↔ s.faulted = none ∧ t = f s := by
  unfold State.running
  cases h : s.faulted with
  | none => simp [eq_comm]
  | some k => simp

/-- A faulted chip refuses a running transition (R343). -/
theorem running_of_faulted {s : State} {k : Fault} (h : s.faulted = some k) (f : State → State) :
    s.running f = .refused (.chipFaulted k) := by
  simp [State.running, h]

/-- A running transition never raises a fault. -/
theorem running_ne_fault (s : State) (f : State → State) (k : Fault) : s.running f ≠ .fault k := by
  unfold State.running
  cases s.faulted <;> simp

/-- The stored byte is read back. -/
@[simp] theorem reg_setReg_same (c : Chip) (a : Addr) (v : Byte) : (c.setReg a v).reg a = v := by
  simp [Chip.reg]

/-- A store leaves every other register alone. -/
theorem reg_setReg_other (c : Chip) {a b : Addr} (v : Byte) (h : b ≠ a) : (c.setReg a v).reg b = c.reg b := by
  have hne : a.toNat ≠ b.toNat := fun e => h (BitVec.eq_of_toNat_eq e.symm)
  simp [Chip.reg, Vector.getElem_set_ne _ _ hne]

/-- The reload value is `max(period, 1)` as a number. -/
theorem reload_toNat {w : Nat} (hw : 0 < w) (p : BitVec w) : (reload p).toNat = max p.toNat 1 := by
  unfold reload
  split
  · next h => subst h; simp [Nat.one_mod_two_pow hw]
  · next h =>
    have : p.toNat ≠ 0 := fun e => h (BitVec.eq_of_toNat_eq (by simpa using e))
    omega

/-- The divider and the generator tick change only `div`, the tones, the noise generator and the envelope. -/
theorem advanceDivider_cases (c : Chip) :
    (c.div.val ≠ 15 ∧ c.advanceDivider = { c with div := c.div + 1 }) ∨
    (c.div.val = 15 ∧ c.advanceDivider = { c with div := 0 }.generatorTick) := by
  unfold Chip.advanceDivider
  by_cases h : c.div.val = 15
  · exact .inr ⟨h, by simp [h]⟩
  · refine .inl ⟨h, ?_⟩
    rw [if_neg (by omega)]

@[simp] theorem advanceDivider_mode (c : Chip) : c.advanceDivider.mode = c.mode := by
  rcases advanceDivider_cases c with ⟨-, h⟩ | ⟨-, h⟩ <;> simp [h]
@[simp] theorem advanceDivider_addr (c : Chip) : c.advanceDivider.addr = c.addr := by
  rcases advanceDivider_cases c with ⟨-, h⟩ | ⟨-, h⟩ <;> simp [h]
@[simp] theorem advanceDivider_da (c : Chip) : c.advanceDivider.da = c.da := by
  rcases advanceDivider_cases c with ⟨-, h⟩ | ⟨-, h⟩ <;> simp [h]
@[simp] theorem advanceDivider_regs (c : Chip) : c.advanceDivider.regs = c.regs := by
  rcases advanceDivider_cases c with ⟨-, h⟩ | ⟨-, h⟩ <;> simp [h]
@[simp] theorem advanceDivider_amp (c : Chip) : c.advanceDivider.amp = c.amp := by
  rcases advanceDivider_cases c with ⟨-, h⟩ | ⟨-, h⟩ <;> simp [h]
@[simp] theorem advanceDivider_chan (c : Chip) : c.advanceDivider.chan = c.chan := by
  rcases advanceDivider_cases c with ⟨-, h⟩ | ⟨-, h⟩ <;> simp [h]

/-- Where the transition system stands after each kind of answer. -/
@[simp] theorem settle_next (s t : State) : s.settle (.next t) = t := rfl
@[simp] theorem settle_fault (s : State) (k : Fault) : s.settle (.fault k) = { s with faulted := some k } := rfl
@[simp] theorem settle_refused (s : State) (r : Refusal) : s.settle (.refused r) = s := rfl

/-- The next request is performed with the rest of the list left to run. -/
theorem step_cons {s : State} {op : HostOp} {rest : List HostOp} (hf : s.faulted = none)
    (hp : s.pending = op :: rest) : step s = perform op { s with pending := rest } := by
  simp [step, takeRequest, hf, hp]

end Sys2Proof.Machine
end

