-- ==== Sys2Proof/Laws/Exec.lean ====
section
/-! SUPPORT. What the dispatch runs: the register operations as the two dispatches `RegRead` and `RegWrite`, and every instruction
as one running transition. -/

namespace Sys2Proof.Machine

/-- A tick into Inactive (R103). -/
theorem exec_busInactive (s : State) : exec .busInactive s = s.running fun s => s.finishTick .inactive := rfl

/-- A tick into Read (R104). -/
theorem exec_busRead (s : State) :
    exec .busRead s = s.running fun s => (if s.armed then readAction s else s).finishTick .read := rfl

/-- A tick into Write (R105). -/
theorem exec_busWrite (s : State) :
    exec .busWrite s = s.running fun s => (if s.armed then writeAction s else s).finishTick .write := rfl

/-- A tick into LatchAddress (R106). -/
theorem exec_busLatch (s : State) :
    exec .busLatch s = s.running fun s => (if s.armed then latchAction s else s).finishTick .latchAddress := rfl

/-- A read instruction is `DA <- RegRead(a)` (R140). -/
theorem exec_readInstr (a : Addr) (s : State) :
    exec (readInstr (RegName.ofAddr a)) s = s.running fun s => s.loadDA (regRead a) := by
  unfold regRead
  cases RegName.ofAddr a <;> rfl

/-- A write instruction is `RegWrite(a, DA)` (R141). -/
theorem exec_writeInstr (a : Addr) (s : State) :
    exec (writeInstr (RegName.ofAddr a)) s = s.running fun s => regWrite a s.chip.da s := by
  unfold regWrite
  cases RegName.ofAddr a <;> rfl

/-- The name of an address names that address. -/
@[simp] theorem ofAddr_addr (r : RegName) : RegName.ofAddr r.addr = r := by
  cases r <;> rfl

/-- Every address is the address of the register it names. -/
@[simp] theorem addr_ofAddr (a : Addr) : (RegName.ofAddr a).addr = a := by
  revert a
  decide

/-- The register operation a word `{W, A}` decodes to (R83). -/
theorem decode_regop_lt {w : Nat} (h : w < 32) :
    decode ⟨.regop, w⟩ = .ok (if w.testBit 4 then writeInstr (RegName.ofAddr (BitVec.ofNat 4 w))
      else readInstr (RegName.ofAddr (BitVec.ofNat 4 w))) := by
  simp [decode, decodeRegOp, h]

/-- Every instruction is a tick or a register operation. -/
theorem instr_cases (i : Instr) :
    i = .busInactive ∨ i = .busRead ∨ i = .busWrite ∨ i = .busLatch ∨
    (∃ r, i = readInstr r) ∨ ∃ r, i = writeInstr r := by
  have h : i = readInstr (RegName.ofAddr (BitVec.ofNat 4 (encode i).bits)) ∨
      i = writeInstr (RegName.ofAddr (BitVec.ofNat 4 (encode i).bits)) ∨ (encode i).format = .bus := by
    cases i <;> decide
  rcases h with h | h | h
  · exact .inr (.inr (.inr (.inr (.inl ⟨_, h⟩))))
  · exact .inr (.inr (.inr (.inr (.inr ⟨_, h⟩))))
  · cases i <;> simp_all [encode]

/-- Every meaning is one running transition: a next state where the chip is not faulted, the refusal where it is (R343). -/
theorem exec_running (i : Instr) : ∃ f : State → State, ∀ s, exec i s = s.running f := by
  cases i <;> exact ⟨_, fun _ => rfl⟩

end Sys2Proof.Machine
end

