-- ==== Sys2Proof/Laws/Operands.lean ====
section
/-! SUPPORT. Operand assembly and the flags as numbers: one lemma per field. -/

namespace Sys2Proof.Machine

/-- Appending puts the high part above the low part's width. -/
theorem append_toNat {a b : Nat} (x : BitVec a) (y : BitVec b) : (x ++ y).toNat = x.toNat * 2 ^ b + y.toNat := by
  rw [BitVec.toNat_append, ← Nat.shiftLeft_add_eq_or_of_lt y.isLt, Nat.shiftLeft_eq]

theorem withToneLow_toNat (p : BitVec 12) (v : Byte) : (withToneLow p v).toNat = p.toNat / 256 * 256 + v.toNat := by
  have hp := p.isLt
  have : (withToneLow p v).toNat = (p.extractLsb' 8 4).toNat * 2 ^ 8 + v.toNat := append_toNat _ _
  rw [this, BitVec.extractLsb'_toNat, Nat.shiftRight_eq_div_pow]
  omega

theorem withToneHigh_toNat (p : BitVec 12) (v : Byte) :
    (withToneHigh p v).toNat = v.toNat % 16 * 256 + p.toNat % 256 := by
  have : (withToneHigh p v).toNat = (v.extractLsb' 0 4).toNat * 2 ^ 8 + (p.extractLsb' 0 8).toNat := append_toNat _ _
  rw [this, BitVec.extractLsb'_toNat, BitVec.extractLsb'_toNat, Nat.shiftRight_zero, Nat.shiftRight_zero]
  omega

theorem toneLowByte_toNat (p : BitVec 12) : (toneLowByte p).toNat = p.toNat % 256 := by
  rw [toneLowByte, BitVec.extractLsb'_toNat, Nat.shiftRight_zero]

theorem toneHighByte_toNat (p : BitVec 12) : (toneHighByte p).toNat = p.toNat / 256 := by
  have hp := p.isLt
  rw [toneHighByte, BitVec.toNat_setWidth, BitVec.extractLsb'_toNat, Nat.shiftRight_eq_div_pow]
  omega

theorem withEnvLow_toNat (p : BitVec 16) (v : Byte) : (withEnvLow p v).toNat = p.toNat / 256 * 256 + v.toNat := by
  have hp := p.isLt
  have : (withEnvLow p v).toNat = (p.extractLsb' 8 8).toNat * 2 ^ 8 + v.toNat := append_toNat _ _
  rw [this, BitVec.extractLsb'_toNat, Nat.shiftRight_eq_div_pow]
  omega

theorem withEnvHigh_toNat (p : BitVec 16) (v : Byte) : (withEnvHigh p v).toNat = v.toNat * 256 + p.toNat % 256 := by
  have : (withEnvHigh p v).toNat = v.toNat * 2 ^ 8 + (p.extractLsb' 0 8).toNat := append_toNat _ _
  rw [this, BitVec.extractLsb'_toNat, Nat.shiftRight_zero]
  omega

theorem envLowByte_toNat (p : BitVec 16) : (envLowByte p).toNat = p.toNat % 256 := by
  rw [envLowByte, BitVec.extractLsb'_toNat, Nat.shiftRight_zero]

theorem envHighByte_toNat (p : BitVec 16) : (envHighByte p).toNat = p.toNat / 256 := by
  have hp := p.isLt
  rw [envHighByte, BitVec.extractLsb'_toNat, Nat.shiftRight_eq_div_pow]
  omega

theorem noiseField_toNat (v : Byte) : (noiseField v).toNat = v.toNat % 32 := by
  rw [noiseField, BitVec.extractLsb'_toNat, Nat.shiftRight_zero]

theorem shapeField_toNat (v : Byte) : (shapeField v).toNat = v.toNat % 16 := by
  rw [shapeField, BitVec.extractLsb'_toNat, Nat.shiftRight_zero]

theorem volumeField_toNat (v : Byte) : (volumeField v).toNat = v.toNat % 16 := by
  rw [volumeField, BitVec.extractLsb'_toNat, Nat.shiftRight_zero]

theorem latchField_toNat (v : Byte) : (latchField v).toNat = v.toNat % 16 := by
  rw [latchField, BitVec.extractLsb'_toNat, Nat.shiftRight_zero]

/-- `v[7:6] != 0` says that the byte is at least 64. -/
theorem asksIoControl_iff (v : Byte) : asksIoControl v = true ↔ 64 ≤ v.toNat := by
  revert v
  decide

theorem lfsrNext_toNat (x : BitVec 17) :
    (lfsrNext x).toNat = (x.getLsbD 0 ^^ x.getLsbD 3).toNat * 65536 + x.toNat / 2 := by
  have hx := x.isLt
  have : (lfsrNext x).toNat =
      (BitVec.ofBool (x.getLsbD 0 ^^ x.getLsbD 3)).toNat * 2 ^ 16 + (x.extractLsb' 1 16).toNat := append_toNat _ _
  rw [this, BitVec.extractLsb'_toNat, Nat.shiftRight_eq_div_pow, BitVec.toNat_ofBool]
  omega

end Sys2Proof.Machine
end

