-- ==== Sys2Proof/Laws/Generators.lean ====
section
/-! SUPPORT. The three kinds of generator: what one clock of each can do, stated once. -/

namespace Sys2Proof.Machine

/-- A down-counter that is at least 1 counts down by one as a number. -/
theorem countdown_toNat {w : Nat} (hw : 0 < w) (c : BitVec w) (h : 1 ≤ c.toNat) : (c - 1).toNat = c.toNat - 1 := by
  have hc := c.isLt
  have h1 : (1 : BitVec w).toNat = 1 := by simp [Nat.one_mod_two_pow hw]
  rw [BitVec.toNat_sub, h1, show 2 ^ w - 1 + c.toNat = 2 ^ w + (c.toNat - 1) by omega, Nat.add_mod_left,
    Nat.mod_eq_of_lt (by omega)]

/-- A down-counter that is at least 1 expires exactly at 1. -/
theorem countdown_expires_iff {w : Nat} (hw : 0 < w) (c : BitVec w) (h : 1 ≤ c.toNat) : c - 1 = 0 ↔ c.toNat = 1 := by
  rw [← BitVec.toNat_inj, countdown_toNat hw c h]
  simp
  omega

/-- One clock of a tone generator (R201). -/
theorem tone_clock_cases (t : Tone) (h : 1 ≤ t.cnt.toNat) :
    (t.cnt.toNat ≠ 1 ∧ t.clock = { t with cnt := t.cnt - 1 }) ∨
    (t.cnt.toNat = 1 ∧ t.clock = { t with cnt := reload t.period, out := !t.out }) := by
  have h0 := countdown_expires_iff (by omega) t.cnt h
  by_cases hc : t.cnt.toNat = 1
  · exact .inr ⟨hc, by simp only [Tone.clock, h0, hc, if_true]⟩
  · exact .inl ⟨hc, by simp only [Tone.clock, h0, hc, if_false]⟩

/-- One clock of the noise generator (R221). -/
theorem noise_clock_cases (g : Noise) (h : 1 ≤ g.cnt.toNat) :
    (g.cnt.toNat ≠ 1 ∧ g.clock = { g with cnt := g.cnt - 1 }) ∨
    (g.cnt.toNat = 1 ∧ g.clock = { g with cnt := reload g.period, lfsr := lfsrNext g.lfsr }) := by
  have h0 := countdown_expires_iff (by omega) g.cnt h
  by_cases hc : g.cnt.toNat = 1
  · exact .inr ⟨hc, by simp only [Noise.clock, h0, hc, if_true]⟩
  · exact .inl ⟨hc, by simp only [Noise.clock, h0, hc, if_false]⟩

/-- One step of the envelope (R245): held, advanced, or advanced with the direction reversed at a ramp boundary. -/
theorem env_advance_cases (e : Env) :
    (e.holding = true ∧ e.advance = e) ∨
    (e.holding = false ∧ (continues e.shape && alternates e.shape && (e.step + 1).extractLsb' 0 4 == 0) = true ∧
      e.advance = { e with step := e.step + 1, dir := e.dir.reverse }) ∨
    (e.holding = false ∧ (continues e.shape && alternates e.shape && (e.step + 1).extractLsb' 0 4 == 0) = false ∧
      e.advance = { e with step := e.step + 1 }) := by
  cases h : e.holding with
  | true => exact .inl ⟨rfl, by simp [Env.advance, h]⟩
  | false =>
    refine .inr ?_
    cases hb : (continues e.shape && alternates e.shape && (e.step + 1).extractLsb' 0 4 == 0) with
    | true => exact .inl ⟨rfl, rfl, by simp only [Env.advance, h, Env.position, hb]; rfl⟩
    | false => exact .inr ⟨rfl, rfl, by simp only [Env.advance, h, Env.position, hb]; rfl⟩

@[simp] theorem advance_cnt (e : Env) : e.advance.cnt = e.cnt := by
  rcases env_advance_cases e with ⟨-, h⟩ | ⟨-, -, h⟩ | ⟨-, -, h⟩ <;> rw [h]
@[simp] theorem advance_period (e : Env) : e.advance.period = e.period := by
  rcases env_advance_cases e with ⟨-, h⟩ | ⟨-, -, h⟩ | ⟨-, -, h⟩ <;> rw [h]
@[simp] theorem advance_shape (e : Env) : e.advance.shape = e.shape := by
  rcases env_advance_cases e with ⟨-, h⟩ | ⟨-, -, h⟩ | ⟨-, -, h⟩ <;> rw [h]

/-- A step neither reads nor changes the counter, so it commutes with setting it. -/
theorem advance_setCnt (e : Env) (x : BitVec 16) : ({ e with cnt := x } : Env).advance = { e.advance with cnt := x } := by
  rcases env_advance_cases e with ⟨h, q⟩ | ⟨h, b, q⟩ | ⟨h, b, q⟩ <;>
    rcases env_advance_cases { e with cnt := x } with ⟨h', q'⟩ | ⟨h', b', q'⟩ | ⟨h', b', q'⟩ <;>
    first
    | exact absurd (h.symm.trans h') (by decide)
    | exact absurd (b.symm.trans b') (by decide)
    | rw [q, q']

/-- A step neither reads nor changes the period, so it commutes with setting it. -/
theorem advance_setPeriod (e : Env) (p : BitVec 16) :
    ({ e with period := p } : Env).advance = { e.advance with period := p } := by
  rcases env_advance_cases e with ⟨h, q⟩ | ⟨h, b, q⟩ | ⟨h, b, q⟩ <;>
    rcases env_advance_cases { e with period := p } with ⟨h', q'⟩ | ⟨h', b', q'⟩ | ⟨h', b', q'⟩ <;>
    first
    | exact absurd (h.symm.trans h') (by decide)
    | exact absurd (b.symm.trans b') (by decide)
    | rw [q, q']

/-- One clock of the envelope generator (R244). -/
theorem env_clock_cases (e : Env) (h : 1 ≤ e.cnt.toNat) :
    (e.cnt.toNat ≠ 1 ∧ e.clock = { e with cnt := e.cnt - 1 }) ∨
    (e.cnt.toNat = 1 ∧ e.clock = { e.advance with cnt := reload e.period }) := by
  have h0 := countdown_expires_iff (by omega) e.cnt h
  by_cases hc : e.cnt.toNat = 1
  · exact .inr ⟨hc, by simp only [Env.clock, h0, hc, if_true, advance_setCnt]⟩
  · exact .inl ⟨hc, by simp only [Env.clock, h0, hc, if_false]⟩

/-- A shift never leads to zero from a register that is not zero (R224). -/
theorem lfsrNext_ne_zero {x : BitVec 17} (h : x ≠ 0) : lfsrNext x ≠ 0 := by
  intro h0
  have hn := lfsrNext_toNat x
  rw [h0] at hn
  have hx : x.toNat < 2 := by
    have : (0 : BitVec 17).toNat = 0 := rfl
    omega
  have : x = 1 := by
    apply BitVec.eq_of_toNat_eq
    have : x.toNat ≠ 0 := fun e => h (BitVec.eq_of_toNat_eq (by simpa using e))
    simp
    omega
  subst this
  exact absurd h0 (by decide)

end Sys2Proof.Machine
end

