-- ==== Sys2Proof/Laws/PerInstr.lean ====
section
/-! SUPPORT. One lemma per instruction: its encoded word fits its format's width. -/

namespace Sys2Proof.Laws.EncodedWord

/-- The encoder gives `i` a word of its format's width: 2 bits for BUS, 5 for REGOP (R81, R83). -/
def Statement (i : Instr) : Prop := i.wf = true ∧ (encode i).wf = true

theorem busInactive : Statement .busInactive := ⟨rfl, rfl⟩
theorem busRead : Statement .busRead := ⟨rfl, rfl⟩
theorem busWrite : Statement .busWrite := ⟨rfl, rfl⟩
theorem busLatch : Statement .busLatch := ⟨rfl, rfl⟩
theorem wr0ToneALo : Statement .wr0ToneALo := ⟨rfl, rfl⟩
theorem wr1ToneAHi : Statement .wr1ToneAHi := ⟨rfl, rfl⟩
theorem wr2ToneBLo : Statement .wr2ToneBLo := ⟨rfl, rfl⟩
theorem wr3ToneBHi : Statement .wr3ToneBHi := ⟨rfl, rfl⟩
theorem wr4ToneCLo : Statement .wr4ToneCLo := ⟨rfl, rfl⟩
theorem wr5ToneCHi : Statement .wr5ToneCHi := ⟨rfl, rfl⟩
theorem wr6NoisePer : Statement .wr6NoisePer := ⟨rfl, rfl⟩
theorem wr7Mixer : Statement .wr7Mixer := ⟨rfl, rfl⟩
theorem wr8AmpA : Statement .wr8AmpA := ⟨rfl, rfl⟩
theorem wr9AmpB : Statement .wr9AmpB := ⟨rfl, rfl⟩
theorem wr10AmpC : Statement .wr10AmpC := ⟨rfl, rfl⟩
theorem wr11EnvLo : Statement .wr11EnvLo := ⟨rfl, rfl⟩
theorem wr12EnvHi : Statement .wr12EnvHi := ⟨rfl, rfl⟩
theorem wr13EnvShape : Statement .wr13EnvShape := ⟨rfl, rfl⟩
theorem wr14IoA : Statement .wr14IoA := ⟨rfl, rfl⟩
theorem wr15IoB : Statement .wr15IoB := ⟨rfl, rfl⟩
theorem rd0ToneALo : Statement .rd0ToneALo := ⟨rfl, rfl⟩
theorem rd1ToneAHi : Statement .rd1ToneAHi := ⟨rfl, rfl⟩
theorem rd2ToneBLo : Statement .rd2ToneBLo := ⟨rfl, rfl⟩
theorem rd3ToneBHi : Statement .rd3ToneBHi := ⟨rfl, rfl⟩
theorem rd4ToneCLo : Statement .rd4ToneCLo := ⟨rfl, rfl⟩
theorem rd5ToneCHi : Statement .rd5ToneCHi := ⟨rfl, rfl⟩
theorem rd6NoisePer : Statement .rd6NoisePer := ⟨rfl, rfl⟩
theorem rd7Mixer : Statement .rd7Mixer := ⟨rfl, rfl⟩
theorem rd8AmpA : Statement .rd8AmpA := ⟨rfl, rfl⟩
theorem rd9AmpB : Statement .rd9AmpB := ⟨rfl, rfl⟩
theorem rd10AmpC : Statement .rd10AmpC := ⟨rfl, rfl⟩
theorem rd11EnvLo : Statement .rd11EnvLo := ⟨rfl, rfl⟩
theorem rd12EnvHi : Statement .rd12EnvHi := ⟨rfl, rfl⟩
theorem rd13EnvShape : Statement .rd13EnvShape := ⟨rfl, rfl⟩
theorem rd14IoA : Statement .rd14IoA := ⟨rfl, rfl⟩
theorem rd15IoB : Statement .rd15IoB := ⟨rfl, rfl⟩

end Sys2Proof.Laws.EncodedWord
end

