-- ==== Sys2Proof/Laws/Step.lean ====
section
/-! SUPPORT. What a line word, a request and a step can do, stated once. -/

namespace Sys2Proof.Machine

/-- The four line words, and every other word (R81, R342). -/
theorem tickWord_cases (w : Nat) (s : State) :
    (w < 4 ∧ ∃ i, decode ⟨.bus, w⟩ = .ok i ∧ tickWord w s = exec i s) ∨
    (4 ≤ w ∧ tickWord w s = .fault (.invariantViolation w)) := by
  match w with
  | 0 => exact .inl ⟨by omega, _, rfl, rfl⟩
  | 1 => exact .inl ⟨by omega, _, rfl, rfl⟩
  | 2 => exact .inl ⟨by omega, _, rfl, rfl⟩
  | 3 => exact .inl ⟨by omega, _, rfl, rfl⟩
  | n + 4 => exact .inr ⟨by omega, rfl⟩

/-- A request is one running transition, or one tick of an `Update`, or it is refused. -/
theorem perform_cases (op : HostOp) (s : State) :
    (∃ f, perform op s = s.running f) ∨
    (∃ w ws, op = .update (w :: ws) ∧ perform op s = tickWord w { s with pending := requeue ws s.pending }) ∨
    ∃ m, op = .misuse m := by
  cases op with
  | update ws =>
    cases ws with
    | nil => exact .inl (by simp only [perform]; exact ⟨_, rfl⟩)
    | cons w ws => exact .inr (.inl ⟨w, ws, rfl, rfl⟩)
  | misuse m => exact .inr (.inr ⟨m, rfl⟩)
  | _ => exact .inl (by simp only [perform]; exact ⟨_, rfl⟩)

/-- A faulted chip refuses every step (R343). -/
theorem step_of_faulted {s : State} {k : Fault} (h : s.faulted = some k) : step s = .refused (.chipFaulted k) := by
  cases hp : s.pending <;> simp [step, takeRequest, State.running, h, hp]

/-- With no request a chip that is not faulted stays as it is (R354). -/
theorem step_idle {s : State} (hf : s.faulted = none) (hp : s.pending = []) : step s = .next s := by
  simp [step, takeRequest, State.running, hf, hp]

/-- Where a step answers a next state, the chip was not faulted, and either nothing was asked for or the first request was
performed. -/
theorem step_next_cases {s t : State} (h : step s = .next t) :
    s.faulted = none ∧
    ((s.pending = [] ∧ t = s) ∨
      ∃ op rest, s.pending = op :: rest ∧ perform op { s with pending := rest } = .next t) := by
  have hf : s.faulted = none := by
    cases hf : s.faulted with
    | none => rfl
    | some k => rw [step_of_faulted hf] at h; simp at h
  refine ⟨hf, ?_⟩
  cases hp : s.pending with
  | nil => rw [step_idle hf hp] at h; exact .inl ⟨rfl, by simpa [eq_comm] using h⟩
  | cons op rest => exact .inr ⟨op, rest, rfl, by rw [← step_cons hf hp]; exact h⟩

/-- Only a line word outside the four modes raises a fault, and it names that word (R342). -/
theorem step_fault_cases {s : State} {k : Fault} (h : step s = .fault k) :
    s.faulted = none ∧ ∃ w ws rest, s.pending = .update (w :: ws) :: rest ∧ 4 ≤ w ∧ k = .invariantViolation w := by
  have hf : s.faulted = none := by
    cases hf : s.faulted with
    | none => rfl
    | some k => rw [step_of_faulted hf] at h; simp at h
  refine ⟨hf, ?_⟩
  cases hp : s.pending with
  | nil => rw [step_idle hf hp] at h; simp at h
  | cons op rest =>
    rw [step_cons hf hp] at h
    rcases perform_cases op { s with pending := rest } with ⟨f, e⟩ | ⟨w, ws, rfl, e⟩ | ⟨m, rfl⟩
    · exact absurd (e.symm.trans h) (running_ne_fault _ f k)
    · rcases tickWord_cases w { s with pending := requeue ws rest } with ⟨-, i, -, hi⟩ | ⟨hw, hi⟩
      · obtain ⟨f, hrun⟩ := exec_running i
        exact absurd ((hrun _).symm.trans (hi.symm.trans (e.symm.trans h))) (running_ne_fault _ f k)
      · exact ⟨w, ws, rest, rfl, hw, by simpa [eq_comm] using hi.symm.trans (e.symm.trans h)⟩
    · simp [perform, hostMisuse, hf] at h

end Sys2Proof.Machine
end

