-- ==== Sys2Proof/Tests/Slice0.lean ====
section
/-! SUPPORT. Small tests: the well-formedness smoke, the words of every instruction, one or two single steps per instruction with
the values of spec/95_test_vectors.md, and a witness for the hypotheses of each statement. -/

namespace Sys2Proof.Tests

open Sys2Proof.Machine

/-- The reset state with another chip. -/
def withChip (f : Chip → Chip) : State := State.reset.onChip f

/-- The reset state with `v` in `DA`. -/
def withDA (v : Byte) : State := withChip fun c => { c with da := v }

/-- The reset state with these requests. -/
def asking (ops : List HostOp) : State := { State.reset with pending := ops }

/-- The chip after an instruction. -/
def chipAfter (i : Instr) (s : State) : Option Chip :=
  match exec i s with
  | .next t => some t.chip
  | _ => none

/-- The diagnostics after an instruction. -/
def diagAfter (i : Instr) (s : State) : Option (List Diag) :=
  match exec i s with
  | .next t => some t.diag
  | _ => none

/-- The chip after a step. -/
def chipAfterStep (s : State) : Option Chip :=
  match step s with
  | .next t => some t.chip
  | _ => none

/-! ### Well-formedness refuses what does not fit -/

theorem test_wf_refuses_bus_word_of_three_bits : CodeWord.wf ⟨.bus, 4⟩ = false := by decide
theorem test_wf_refuses_regop_word_of_six_bits : CodeWord.wf ⟨.regop, 32⟩ = false := by decide
theorem test_wf_refuses_misuse : HostOp.wf (.misuse .unsynchronisedCall) = false := by decide
theorem test_wf_refuses_update_word_four : HostOp.wf (.update [0, 4]) = false := by decide
theorem test_wf_takes_the_largest_words :
    CodeWord.wf ⟨.bus, 3⟩ = true ∧ CodeWord.wf ⟨.regop, 31⟩ = true := by decide

/-! ### Every row's word, bit by bit from spec/30_encoding.md R81 and R83 -/

theorem test_word_busInactive : decode ⟨.bus, 0b00⟩ = .ok .busInactive := by rfl
theorem test_word_busRead : decode ⟨.bus, 0b01⟩ = .ok .busRead := by rfl
theorem test_word_busWrite : decode ⟨.bus, 0b10⟩ = .ok .busWrite := by rfl
theorem test_word_busLatch : decode ⟨.bus, 0b11⟩ = .ok .busLatch := by rfl
theorem test_word_wr0ToneALo : decode ⟨.regop, 0b10000⟩ = .ok .wr0ToneALo := by rfl
theorem test_word_wr1ToneAHi : decode ⟨.regop, 0b10001⟩ = .ok .wr1ToneAHi := by rfl
theorem test_word_wr2ToneBLo : decode ⟨.regop, 0b10010⟩ = .ok .wr2ToneBLo := by rfl
theorem test_word_wr3ToneBHi : decode ⟨.regop, 0b10011⟩ = .ok .wr3ToneBHi := by rfl
theorem test_word_wr4ToneCLo : decode ⟨.regop, 0b10100⟩ = .ok .wr4ToneCLo := by rfl
theorem test_word_wr5ToneCHi : decode ⟨.regop, 0b10101⟩ = .ok .wr5ToneCHi := by rfl
theorem test_word_wr6NoisePer : decode ⟨.regop, 0b10110⟩ = .ok .wr6NoisePer := by rfl
theorem test_word_wr7Mixer : decode ⟨.regop, 0b10111⟩ = .ok .wr7Mixer := by rfl
theorem test_word_wr8AmpA : decode ⟨.regop, 0b11000⟩ = .ok .wr8AmpA := by rfl
theorem test_word_wr9AmpB : decode ⟨.regop, 0b11001⟩ = .ok .wr9AmpB := by rfl
theorem test_word_wr10AmpC : decode ⟨.regop, 0b11010⟩ = .ok .wr10AmpC := by rfl
theorem test_word_wr11EnvLo : decode ⟨.regop, 0b11011⟩ = .ok .wr11EnvLo := by rfl
theorem test_word_wr12EnvHi : decode ⟨.regop, 0b11100⟩ = .ok .wr12EnvHi := by rfl
theorem test_word_wr13EnvShape : decode ⟨.regop, 0b11101⟩ = .ok .wr13EnvShape := by rfl
theorem test_word_wr14IoA : decode ⟨.regop, 0b11110⟩ = .ok .wr14IoA := by rfl
theorem test_word_wr15IoB : decode ⟨.regop, 0b11111⟩ = .ok .wr15IoB := by rfl
theorem test_word_rd0ToneALo : decode ⟨.regop, 0b00000⟩ = .ok .rd0ToneALo := by rfl
theorem test_word_rd1ToneAHi : decode ⟨.regop, 0b00001⟩ = .ok .rd1ToneAHi := by rfl
theorem test_word_rd2ToneBLo : decode ⟨.regop, 0b00010⟩ = .ok .rd2ToneBLo := by rfl
theorem test_word_rd3ToneBHi : decode ⟨.regop, 0b00011⟩ = .ok .rd3ToneBHi := by rfl
theorem test_word_rd4ToneCLo : decode ⟨.regop, 0b00100⟩ = .ok .rd4ToneCLo := by rfl
theorem test_word_rd5ToneCHi : decode ⟨.regop, 0b00101⟩ = .ok .rd5ToneCHi := by rfl
theorem test_word_rd6NoisePer : decode ⟨.regop, 0b00110⟩ = .ok .rd6NoisePer := by rfl
theorem test_word_rd7Mixer : decode ⟨.regop, 0b00111⟩ = .ok .rd7Mixer := by rfl
theorem test_word_rd8AmpA : decode ⟨.regop, 0b01000⟩ = .ok .rd8AmpA := by rfl
theorem test_word_rd9AmpB : decode ⟨.regop, 0b01001⟩ = .ok .rd9AmpB := by rfl
theorem test_word_rd10AmpC : decode ⟨.regop, 0b01010⟩ = .ok .rd10AmpC := by rfl
theorem test_word_rd11EnvLo : decode ⟨.regop, 0b01011⟩ = .ok .rd11EnvLo := by rfl
theorem test_word_rd12EnvHi : decode ⟨.regop, 0b01100⟩ = .ok .rd12EnvHi := by rfl
theorem test_word_rd13EnvShape : decode ⟨.regop, 0b01101⟩ = .ok .rd13EnvShape := by rfl
theorem test_word_rd14IoA : decode ⟨.regop, 0b01110⟩ = .ok .rd14IoA := by rfl
theorem test_word_rd15IoB : decode ⟨.regop, 0b01111⟩ = .ok .rd15IoB := by rfl

/-- A word of the table is read with its row's width; in whole bytes the words 0-3 are the bus-mode words (log 3). -/
theorem test_tableWord :
    decodeTableWord 2 0b10 = some .busWrite ∧ decodeTableWord 5 0b00010 = some .rd2ToneBLo ∧
    decodeTableWord 8 0b11101 = some .wr13EnvShape ∧ decodeTableWord 8 0b01101 = some .rd13EnvShape ∧
    decodeTableWord 8 0b10 = some .busWrite ∧ decodeTableWord 8 32 = none ∧ decodeTableWord 2 4 = none := by decide

/-! ### The chip tick (V2.B1-V2.B6) -/

/-- V2.B2: a Read edge acts; a Read tick after a LatchAddress tick does not. -/
theorem test_busRead_edge :
    (chipAfter .busRead (withChip fun c => { c with addr := 13, env := { c.env with shape := 0xE } })).map (·.da) = some 0x0E ∧
    (chipAfter .busRead (withChip fun c =>
      { c with addr := 13, mode := .latchAddress, env := { c.env with shape := 0xE } })).map (·.da) = some 0 := by decide

/-- V2.B4: the first tick of a held Write acts, the second does not. -/
theorem test_busWrite_edge :
    (chipAfter .busWrite (withChip fun c => { c with addr := 7, da := 0x3E })).map (·.regs[7]) = some 0x3E ∧
    (chipAfter .busWrite (withChip fun c => { c with addr := 7, da := 0x3E, mode := .write })).map (·.regs[7]) = some 0 := by
  decide

/-- V2.B3: the latch takes `DA[3:0]`. -/
theorem test_busLatch_masks :
    (chipAfter .busLatch (withDA 0x1F)).map (·.addr) = some 15 ∧ (chipAfter .busLatch (withDA 0xF0)).map (·.addr) = some 0 ∧
    (chipAfter .busLatch (withDA 0x37)).map (·.addr) = some 7 := by decide

/-- R107: after every tick the mode is the tick's. -/
theorem test_busInactive_mode :
    (chipAfter .busInactive (withChip fun c => { c with mode := .read, div := 14 })).map (fun c => (c.mode, c.div)) =
      some (.inactive, 15) := by decide

/-- V2.B5: a write on a generator-tick tick is seen by that generator tick. -/
theorem test_busWrite_same_tick :
    (chipAfter .busWrite (withChip fun c =>
      { c with da := 0x09, div := 15, tone := c.tone.set 0 ⟨5, 1, false⟩ })).map (fun c => (c.tone[0].cnt, c.div)) =
      some (9, 0) := by decide

/-! ### Register writes (V2.R1-V2.R16, V2.X1-V2.X3) -/

theorem test_wr0 : (chipAfter .wr0ToneALo (withDA 0xAB)).map (fun c => (c.tone[0].period, c.regs[0])) = some (0x0AB, 0xAB) := by
  decide
theorem test_wr1 : (chipAfter .wr1ToneAHi (withDA 0xFF)).map (fun c => (c.tone[0].period, c.regs[1])) = some (0xF00, 0xFF) := by
  decide
theorem test_wr2 :
    (chipAfter .wr2ToneBLo (withDA 0x34)).map (fun c => (c.tone[1].period, c.tone[0].period)) = some (0x034, 0) := by decide
theorem test_wr3 :
    (chipAfter .wr3ToneBHi (withChip fun c => { c with da := 0x12, tone := c.tone.set 1 ⟨0x034, 1, false⟩ })).map
      (·.tone[1].period) = some 0x234 := by decide
theorem test_wr4 :
    (chipAfter .wr4ToneCLo (withChip fun c => { c with da := 0xFF, tone := c.tone.set 2 ⟨0xF00, 1, false⟩ })).map
      (·.tone[2].period) = some 0xFFF := by decide
theorem test_wr5 : (chipAfter .wr5ToneCHi (withDA 0x0F)).map (·.tone[2].period) = some 0xF00 := by decide
theorem test_wr6 : (chipAfter .wr6NoisePer (withDA 0xFF)).map (fun c => (c.noise.period, c.regs[6])) = some (31, 0xFF) := by
  decide

/-- V1.6: 0xC5 sets the flags 0x05 gives, and emits the diagnostic. -/
theorem test_wr7_io_bits :
    (chipAfter .wr7Mixer (withDA 0xC5)).map (fun c => c.chan.toList.map fun h => (h.toneEn, h.noiseEn)) =
      some [(false, true), (true, true), (false, true)] ∧
    diagAfter .wr7Mixer (withDA 0xC5) = some [.unsupportedConfig 7 0xC5] := by decide

/-- V2.R6, V2.X2: 0x3E enables tone A alone; 0x3F enables nothing; neither emits anything. -/
theorem test_wr7_plain :
    (chipAfter .wr7Mixer (withDA 0x3E)).map (fun c => c.chan.toList.map fun h => (h.toneEn, h.noiseEn)) =
      some [(true, false), (false, false), (false, false)] ∧
    diagAfter .wr7Mixer (withDA 0x3F) = some [] := by decide
theorem test_wr8 : (chipAfter .wr8AmpA (withDA 0x1F)).map (fun c => (c.amp[0], c.regs[8])) = some (⟨.envelope, 15⟩, 0x1F) := by
  decide
theorem test_wr9 : (chipAfter .wr9AmpB (withDA 0xEF)).map (fun c => (c.amp[1], c.regs[9])) = some (⟨.fixed, 15⟩, 0xEF) := by
  decide
theorem test_wr10 :
    (chipAfter .wr10AmpC (withDA 0x10)).map (fun c => (c.amp[2], c.amp[1])) = some (⟨.envelope, 0⟩, ⟨.fixed, 0⟩) := by decide
theorem test_wr11 :
    (chipAfter .wr11EnvLo (withDA 0x34)).map (fun c => (c.env.period, c.regs[11])) = some (0x0034, 0x34) := by decide
theorem test_wr12 :
    (chipAfter .wr12EnvHi (withChip fun c => { c with da := 0x12, env := { c.env with period := 0x0034 } })).map
      (·.env.period) = some 0x1234 := by decide
theorem test_wr13 :
    (chipAfter .wr13EnvShape (withDA 0xFE)).map (fun c => (c.env.shape, c.env.step, c.env.dir)) = some (0xE, 0, .up) := by decide

/-- V2.E4: a write of the same shape leaves the hold; the counter is not changed. -/
theorem test_wr13_restart :
    (chipAfter .wr13EnvShape (withChip fun c => { c with env := ⟨9, 5, 0, 15, .down⟩ })).map
      (fun c => (c.env.step, c.env.level, c.env.cnt)) = some (0, 15, 5) := by decide
theorem test_wr14 : (chipAfter .wr14IoA (withDA 0x5A)).map (fun c => (c.regs[14], c.regs[15])) = some (0x5A, 0) := by decide
theorem test_wr15 : (chipAfter .wr15IoB (withDA 0xA5)).map (fun c => (c.regs[15], c.regs[14])) = some (0xA5, 0) := by decide

/-! ### Register reads (V2.R1-V2.R16) -/

/-- A chip whose fields hold the values of V2.R1-V2.R14. -/
def filled : State := withChip fun c => { c with
  tone  := #v[⟨0xFAB, 1, false⟩, ⟨0x234, 1, false⟩, ⟨0xEFF, 1, false⟩]
  noise := { c.noise with period := 31 }
  env   := { c.env with period := 0x1234, shape := 0xE }
  regs  := #v[0, 0, 0, 0, 0, 0, 0, 0x40, 0x1F, 0xEF, 0x10, 0, 0, 0, 0x5A, 0xA5] }

theorem test_rd0 : (chipAfter .rd0ToneALo filled).map (·.da) = some 0xAB := by decide
theorem test_rd1 : (chipAfter .rd1ToneAHi filled).map (·.da) = some 0x0F := by decide
theorem test_rd2 : (chipAfter .rd2ToneBLo filled).map (·.da) = some 0x34 := by decide
theorem test_rd3 : (chipAfter .rd3ToneBHi filled).map (·.da) = some 0x02 := by decide
theorem test_rd4 : (chipAfter .rd4ToneCLo filled).map (·.da) = some 0xFF := by decide
theorem test_rd5 : (chipAfter .rd5ToneCHi filled).map (·.da) = some 0x0E := by decide
theorem test_rd6 : (chipAfter .rd6NoisePer filled).map (·.da) = some 0x1F := by decide
theorem test_rd7 : (chipAfter .rd7Mixer filled).map (·.da) = some 0x40 := by decide
theorem test_rd8 : (chipAfter .rd8AmpA filled).map (·.da) = some 0x1F := by decide
theorem test_rd9 : (chipAfter .rd9AmpB filled).map (·.da) = some 0xEF := by decide
theorem test_rd10 : (chipAfter .rd10AmpC filled).map (·.da) = some 0x10 := by decide
theorem test_rd11 : (chipAfter .rd11EnvLo filled).map (·.da) = some 0x34 := by decide
theorem test_rd12 : (chipAfter .rd12EnvHi filled).map (·.da) = some 0x12 := by decide
theorem test_rd13 : (chipAfter .rd13EnvShape filled).map (·.da) = some 0x0E := by decide
theorem test_rd14 : (chipAfter .rd14IoA filled).map (·.da) = some 0x5A := by decide
theorem test_rd15 : (chipAfter .rd15IoB filled).map (·.da) = some 0xA5 := by decide

/-! ### Generators, gate and sample -/

/-- V1.1: period 3 from (3, 0): the (cnt, out) pairs of six generator ticks. -/
theorem test_tone_period_three :
    (List.range 7).map (fun k => let t := Nat.iterate Tone.clock k ⟨3, 3, false⟩; (t.cnt.toNat, t.out)) =
      [(3, false), (2, false), (1, false), (3, true), (2, true), (1, true), (3, false)] := by decide

/-- V2.N2: the feedback corners. -/
theorem test_lfsr_corners :
    lfsrNext 0x00008 = 0x10004 ∧ lfsrNext 0x00009 = 0x00004 ∧ lfsrNext 0x00001 = 0x10000 ∧ lfsrNext 0x1FFFF = 0x0FFFF := by
  decide

/-- V2.E3: the wraps of shapes 0x8, 0xA and 0xE. -/
theorem test_env_wraps :
    Env.advance ⟨1, 1, 0x8, 31, .down⟩ = ⟨1, 1, 0x8, 0, .down⟩ ∧ Env.advance ⟨1, 1, 0xA, 31, .up⟩ = ⟨1, 1, 0xA, 0, .down⟩ ∧
    Env.advance ⟨1, 1, 0xE, 15, .up⟩ = ⟨1, 1, 0xE, 16, .down⟩ := by decide

/-- V2.E2: the hold states. -/
theorem test_env_holds :
    Env.holding ⟨1, 1, 0x0, 15, .down⟩ = true ∧ Env.holding ⟨1, 1, 0x4, 15, .up⟩ = true ∧
    Env.holding ⟨1, 1, 0x9, 15, .down⟩ = true ∧ Env.holding ⟨1, 1, 0xB, 31, .up⟩ = true ∧
    Env.holding ⟨1, 1, 0xB, 15, .down⟩ = false ∧ Env.holding ⟨1, 1, 0x8, 15, .down⟩ = false := by decide

/-- V2.A1, V2.A2: rows of the gate's truth table, the first of them with an override. -/
theorem test_gate_rows :
    Chip.gate { Chip.reset NoiseSeed.default with chan := Vector.replicate 3 ⟨false, false, true, false⟩ } 0 = false ∧
    Chip.gate (Chip.reset NoiseSeed.default) 0 = true ∧
    Chip.gate { Chip.reset NoiseSeed.default with chan := Vector.replicate 3 ⟨true, false, false, false⟩ } 1 = false ∧
    Chip.gate { Chip.reset NoiseSeed.default with chan := Vector.replicate 3 ⟨false, true, false, false⟩ } 2 = true := by decide

/-- V2.A4: (+15, -7, +0) has the numerator 8. -/
theorem test_sample_numerator :
    Chip.sampleNum { Chip.reset NoiseSeed.default with
      amp := #v[⟨.fixed, 15⟩, ⟨.fixed, 7⟩, ⟨.fixed, 0⟩]
      chan := #v[⟨false, false, false, false⟩, ⟨true, false, false, false⟩, ⟨false, false, false, false⟩] } = 8 := by decide

/-! ### The step -/

/-- V2.Z2: after a reset with the lines held at Write, the next tick is an edge that writes `DA` = 0 to register 0. -/
theorem test_step_after_reset_is_an_edge :
    (chipAfterStep (asking [.update [0b10]])).map (fun c => (c.mode, c.regs[0], c.div)) = some (.write, 0, 1) := by decide

/-- A placed register operation runs in the next step as the edge at its address. -/
theorem test_placed_write :
    (chipAfterStep ((withDA 0xAB).withFetchWord 5 0b10000)).map (fun c => (c.tone[0].period, c.mode)) = some (0x0AB, .write) := by
  decide
theorem test_placed_bus_word :
    (chipAfterStep ((withDA 0x37).withFetchWord 8 0b11)).map (fun c => (c.addr, c.mode)) = some (7, .latchAddress) := by decide

/-- R96: `SETREG a, v` in the bus-script notation. -/
theorem test_script_setreg :
    compileScript .inactive (scriptSetReg 7 0x3E) =
      [.writeDA 0x07, .update [0b11], .update [0b00], .writeDA 0x3E, .update [0b10], .update [0b00]] := by decide

/-- R344: the codes. -/
theorem test_codes : Diag.code (.unsupportedConfig 7 0x40) = 1 ∧ Fault.code (.invariantViolation 4) = 2 := by decide

/-! ### Witnesses: for each statement with hypotheses, a state and operands that meet them, clause by clause -/

theorem witness_DecodeAndEncodeAreInverse :
    Instr.wf .wr15IoB = true ∧ decode ⟨.bus, 3⟩ = .ok .busLatch ∧ decode ⟨.regop, 31⟩ = .ok .wr15IoB ∧
    CodeWord.wf ⟨.regop, 31⟩ = true := ⟨rfl, rfl, rfl, rfl⟩

theorem witness_OutOfRangeWordsRejectedByName :
    4 ≤ 4 ∧ 32 ≤ 32 := by decide

theorem witness_StepRunsTheDecodedBusWord :
    (asking [.update [0], .reset]).faulted = none ∧ (asking [.update [0], .reset]).pending = .update (0 :: []) :: [.reset] ∧
    decode ⟨.bus, 0⟩ = .ok .busInactive ∧ (asking [.update [3, 1]]).pending = .update (3 :: [1]) :: [] ∧
    decode ⟨.bus, 3⟩ = .ok .busLatch := ⟨rfl, rfl, rfl, rfl, rfl⟩

theorem witness_EdgePerformsTheLatchedRegisterOperation :
    ∃ s : State, s.faulted = none ∧ s.chip.mode = .inactive ∧
    decode ⟨.regop, s.chip.addr.toNat⟩ = .ok .rd15IoB ∧ decode ⟨.regop, 16 + s.chip.addr.toNat⟩ = .ok .wr15IoB := 
  ⟨withChip fun c => { c with addr := 15 }, rfl, rfl, rfl, rfl⟩

theorem witness_PlacedWordRunsInTheNextStep :
    State.reset.faulted = none ∧ decode ⟨.bus, 3⟩ = .ok .busLatch ∧ decode ⟨.regop, 0⟩ = .ok .rd0ToneALo ∧
    decode ⟨.regop, 31⟩ = .ok .wr15IoB := ⟨rfl, rfl, rfl, rfl⟩

theorem witness_InactiveTickOnlyRecordsModeAndDivides :
    State.reset.faulted = none := rfl

theorem witness_ReadTickActsOnTheEdgeOnly :
    State.reset.faulted = none ∧ State.reset.chip.mode = .inactive ∧
    (withChip fun c => { c with mode := .read }).faulted = none ∧ (withChip fun c => { c with mode := .read }).chip.mode ≠ .inactive := by decide

theorem witness_WriteTickActsOnTheEdgeOnly :
    State.reset.faulted = none ∧ State.reset.chip.mode = .inactive ∧
    (withChip fun c => { c with mode := .write }).faulted = none ∧ (withChip fun c => { c with mode := .write }).chip.mode ≠ .inactive := by decide

theorem witness_LatchTickActsOnTheEdgeOnly :
    State.reset.faulted = none ∧ State.reset.chip.mode = .inactive ∧
    (withChip fun c => { c with mode := .latchAddress }).faulted = none ∧ (withChip fun c => { c with mode := .latchAddress }).chip.mode ≠ .inactive := by decide

theorem witness_DividerClocksGeneratorsEverySixteenthTick :
    ({ Chip.reset NoiseSeed.default with div := 14 } : Chip).div.val ≠ 15 ∧
    ({ Chip.reset NoiseSeed.default with div := 15 } : Chip).div.val = 15 := by decide

/-- The reset state on the last tick before a generator tick, with the address `a` latched and `v` in `DA`. -/
def dueAt (a : Addr) (v : Byte) : State := withChip fun c => { c with div := 15, addr := a, da := v }

theorem witness_WriteIsSeenByTheSameTicksGeneratorTick :
    (∀ a : Addr, (dueAt a 0xFF).faulted = none ∧ (dueAt a 0xFF).chip.mode = .inactive ∧ (dueAt a 0xFF).chip.div = 15) ∧
    (∀ c : Channel, (dueAt 0 0xFF).chip.tone[c].cnt = 1) ∧ (dueAt 0 0xFF).chip.addr.toNat = 2 * (0 : Channel).val ∧
    (dueAt 5 0xFF).chip.addr.toNat = 2 * (2 : Channel).val + 1 ∧ (dueAt 6 0xFF).chip.noise.cnt = 1 ∧
    (dueAt 11 0xFF).chip.env.cnt = 1 ∧ (dueAt 12 0xFF).chip.env.cnt = 1 ∧ (dueAt 13 0xFF).chip.env.cnt = 1 := by decide

theorem witness_WriteIsSeenByTheSameTicksGeneratorTick_running_counter :
    let s := withChip fun c => { c with div := 15, addr := 13, env := { c.env with cnt := 2 } }
    s.faulted = none ∧ s.chip.mode = .inactive ∧ s.chip.div = 15 ∧ s.chip.addr = 13 ∧ s.chip.env.cnt ≠ 1 := by decide

theorem witness_ToneLowReadsReturnPeriodLowByte :
    filled.faulted = none := rfl

theorem witness_ToneHighReadsReturnPeriodHighNibble :
    filled.faulted = none := rfl

theorem witness_NarrowFieldReadsAreZeroExtended :
    filled.faulted = none := rfl

theorem witness_EnvPeriodReadsReturnItsBytes :
    filled.faulted = none := rfl

theorem witness_BackingReadsReturnTheStoredByte :
    filled.faulted = none := rfl

theorem witness_ToneLowWritesReplacePeriodLowByte :
    (withDA 0xFF).faulted = none := rfl

theorem witness_ToneHighWritesReplacePeriodHighNibble :
    (withDA 0xFF).faulted = none := rfl

theorem witness_NoisePeriodWriteSetsFiveBits :
    (withDA 0x20).faulted = none := rfl

theorem witness_MixerWriteSetsEnablesAndDiagnoses :
    (withDA 0x40).faulted = none := rfl

theorem witness_AmplitudeWritesSetModeAndVolume :
    (withDA 0x10).faulted = none := rfl

theorem witness_EnvPeriodWritesReplaceOneByte :
    (withDA 0xFF).faulted = none := rfl

theorem witness_EnvShapeWriteRestartsTheEnvelope :
    (withDA 0x04).faulted = none := rfl

theorem witness_IoPortWritesStoreTheByte :
    (withDA 0xA5).faulted = none := rfl

theorem witness_InstructionsCompleteUnlessFaulted :
    State.reset.faulted = none ∧
    ({ State.reset with faulted := some (.invariantViolation 4) } : State).faulted = some (.invariantViolation 4) := ⟨rfl, rfl⟩

theorem witness_InstructionsKeepOverridesAndHostSide :
    ∃ t, exec .wr7Mixer (withDA 0x40) = .next t := ⟨_, rfl⟩

theorem witness_RegisterFileFrame :
    (∃ t, exec .wr15IoB (withDA 0xA5) = .next t) ∧ encode .wr15IoB = ⟨.regop, 16 + (15 : Addr).toNat⟩ ∧
    (∃ t, exec .busWrite (withDA 0xA5) = .next t) ∧ (withDA 0xA5).chip.mode = .inactive ∧ (withDA 0xA5).chip.addr = 0 := 
  ⟨⟨_, rfl⟩, rfl, ⟨_, rfl⟩, rfl, rfl⟩

theorem witness_RegisterOperationsLeaveGeneratorsRunning :
    (encode .wr12EnvHi).format = .regop ∧ (∃ t, exec .wr12EnvHi filled = .next t) ∧ Instr.wr12EnvHi ≠ .wr13EnvShape ∧
    (encode .wr13EnvShape).format = .regop ∧ ∃ t, exec .wr13EnvShape filled = .next t := 
  ⟨rfl, ⟨_, rfl⟩, by decide, rfl, ⟨_, rfl⟩⟩

theorem witness_AddressEnablesAndAmplitudesHaveOneWriter :
    (∃ t, exec .busLatch State.reset = .next t) ∧ State.reset.chip.mode = .inactive ∧
    (∃ t, exec .wr9AmpB State.reset = .next t) ∧ Instr.wr9AmpB ≠ .wr7Mixer ∧
    encode .wr9AmpB ≠ ⟨.regop, 24 + (0 : Channel).val⟩ ∧ encode .wr9AmpB ≠ ⟨.regop, 24 + (2 : Channel).val⟩ ∧
    (∃ t, exec .busWrite State.reset = .next t) ∧ State.reset.chip.addr ≠ 7 ∧ State.reset.chip.addr.toNat ≠ 8 + (0 : Channel).val := 
  ⟨⟨_, rfl⟩, rfl, ⟨_, rfl⟩, by decide, by decide, by decide, ⟨_, rfl⟩, by decide, by decide⟩

theorem witness_DiagnosticComesFromTheMixerAlone :
    (∃ t, exec .wr7Mixer (withDA 0x40) = .next t) ∧ 64 ≤ (withDA 0x40).chip.da.toNat ∧
    (∃ t, exec .wr7Mixer (withDA 0x3F) = .next t) ∧ ¬64 ≤ (withDA 0x3F).chip.da.toNat ∧
    ∃ t, exec .wr6NoisePer (withDA 0xFF) = .next t := 
  ⟨⟨_, rfl⟩, by decide, ⟨_, rfl⟩, by decide, ⟨_, rfl⟩⟩

theorem witness_WordOutsideTheModesRaisesTheFault :
    State.reset.faulted = none ∧ 4 ≤ 4 := by decide

theorem witness_FaultedStateIsAbsorbing :
    step (asking [.update [4]]) = .fault (.invariantViolation 4) := rfl

theorem witness_WellFormedRequestsNeverFault :
    (asking [.update [0, 3], .sample]).faulted = none ∧ (asking [.update [0, 3], .sample]).requestsWf = true := ⟨rfl, by decide⟩

theorem witness_EveryStepKeepsTheChipInvariant :
    State.reset.chip.Inv ∧ ∃ t, step (asking [.update [2]]) = .next t := 
  ⟨⟨by decide, by decide, by decide, by decide, by decide⟩, ⟨_, rfl⟩⟩

theorem witness_UpdateRunsItsTicksInOrder :
    State.reset.faulted = none ∧ (∀ w ∈ [0, 3], w < 4) ∧ [0, 3] ≠ [] := ⟨rfl, by decide, by decide⟩

theorem witness_ToneClockCountsAndFlipsOnExpiry :
    1 ≤ (⟨0, 1, false⟩ : Tone).cnt.toNat ∧ (⟨0, 1, false⟩ : Tone).cnt.toNat = 1 ∧
    1 ≤ (⟨0, 0xFFF, false⟩ : Tone).cnt.toNat ∧ (⟨0, 0xFFF, false⟩ : Tone).cnt.toNat ≠ 1 := by decide

theorem witness_ToneIsPeriodicWithTwoToggles :
    1 ≤ (⟨1, 1, false⟩ : Tone).cnt.toNat ∧ (⟨1, 1, false⟩ : Tone).cnt.toNat ≤ (⟨1, 1, false⟩ : Tone).period.toNat ∧
    1 ≤ (⟨0xFFF, 0xFFF, true⟩ : Tone).cnt.toNat ∧
    (⟨0xFFF, 0xFFF, true⟩ : Tone).cnt.toNat ≤ (⟨0xFFF, 0xFFF, true⟩ : Tone).period.toNat ∧ 0 < 2 * (⟨1, 1, false⟩ : Tone).period.toNat := by decide

theorem witness_NoiseClockCountsAndShiftsOnExpiry :
    1 ≤ (⟨0, 1, 1⟩ : Noise).cnt.toNat ∧ (⟨0, 1, 1⟩ : Noise).cnt.toNat = 1 ∧
    1 ≤ (⟨0, 31, 1⟩ : Noise).cnt.toNat ∧ (⟨0, 31, 1⟩ : Noise).cnt.toNat ≠ 1 := by decide

theorem witness_LfsrSequenceIsMaximalLength :
    (0x1FFFF : BitVec 17) ≠ 0 ∧ 0 < 1 ∧ 1 < 131071 ∧ 0 < 131070 ∧ 131070 < 131071 := by decide

theorem witness_EnvStepFollowsTheShape :
    Env.holding ⟨1, 1, 0xF, 31, .down⟩ = true ∧ Env.holding ⟨1, 1, 0xF, 15, .up⟩ = false := by decide

theorem witness_EnvClockCountsAndStepsOnExpiry :
    1 ≤ (⟨0, 1, 0, 0, .down⟩ : Env).cnt.toNat ∧ (⟨0, 1, 0, 0, .down⟩ : Env).cnt.toNat = 1 ∧
    1 ≤ (⟨0, 0xFFFF, 0, 0, .down⟩ : Env).cnt.toNat ∧ (⟨0, 0xFFFF, 0, 0, .down⟩ : Env).cnt.toNat ≠ 1 := by decide

theorem witness_EnvelopeLevelsOfTheSixteenShapes :
    (0x7 : BitVec 4).toNat.testBit 3 = false ∧
    ((0xD : BitVec 4).toNat.testBit 0 = true ∧ (0xD : BitVec 4).toNat.testBit 1 = false) ∧
    ((0xC : BitVec 4).toNat.testBit 3 = true ∧ (0xC : BitVec 4).toNat.testBit 0 = false ∧ (0xC : BitVec 4).toNat.testBit 1 = false) ∧
    ((0xA : BitVec 4).toNat.testBit 3 = true ∧ (0xA : BitVec 4).toNat.testBit 0 = false ∧ (0xA : BitVec 4).toNat.testBit 1 = true) ∧
    ((0xF : BitVec 4).toNat.testBit 3 = true ∧ (0xF : BitVec 4).toNat.testBit 0 = true ∧ (0xF : BitVec 4).toNat.testBit 1 = true) := by decide

theorem witness_ShiftsAndStepsComeOncePerPeriod :
    (1 ≤ (⟨31, 31, 1⟩ : Noise).period.toNat ∧ (⟨31, 31, 1⟩ : Noise).cnt = (⟨31, 31, 1⟩ : Noise).period) ∧
    (1 ≤ (⟨1, 1, 0, 0, .down⟩ : Env).period.toNat ∧ (⟨1, 1, 0, 0, .down⟩ : Env).cnt = (⟨1, 1, 0, 0, .down⟩ : Env).period) := by decide

theorem witness_HeldLevelIsFrozen :
    Env.holding ⟨1, 1, 0x4, 15, .up⟩ = true := by decide

theorem witness_VolumeIsFixedOrTheSharedLevel :
    (Chip.reset NoiseSeed.default).amp[(0 : Channel)].mode = .fixed ∧
    ({ Chip.reset NoiseSeed.default with amp := Vector.replicate 3 ⟨.envelope, 9⟩ } : Chip).amp[(2 : Channel)].mode = .envelope := by decide

theorem witness_ChannelSampleIsSignedVolume :
    Chip.gate (Chip.reset NoiseSeed.default) 0 = true ∧
    Chip.gate { Chip.reset NoiseSeed.default with chan := Vector.replicate 3 ⟨true, false, false, false⟩ } 0 = false := by decide

theorem witness_WriteDaSetsTheDataBusAlone :
    (asking [.writeDA 0x12, .readDA]).faulted = none ∧ (asking [.writeDA 0x12, .readDA]).pending = .writeDA 0x12 :: [.readDA] := ⟨rfl, rfl⟩

theorem witness_ReadDaAndAccessorsChangeNothing :
    State.reset.faulted = none := rfl

theorem witness_SampleReturnsTheMixAndChangesNothing :
    let s := withChip fun c => { c with amp := Vector.replicate 3 ⟨.fixed, 15⟩ }
    s.faulted = none ∧ s.chip.sampleNum ≠ 0 ∧ State.reset.faulted = none ∧ State.reset.chip.sampleNum = 0 := by decide

theorem witness_OverrideSettersWriteOneFlag :
    State.reset.faulted = none := rfl

theorem witness_IdleKeepsStateAndMisuseIsRefused :
    State.reset.faulted = none ∧ State.reset.pending = [] ∧
    (asking [.misuse .linesChangedInsideTick]).faulted = none ∧
    (asking [.misuse .linesChangedInsideTick]).pending = .misuse .linesChangedInsideTick :: [] := ⟨rfl, rfl, rfl, rfl⟩

theorem witness_ResetSetsEveryFieldOfTheChip :
    (asking [.reset]).faulted = none ∧ (asking [.reset]).pending = .reset :: [] ∧ (asking [.reset]).seed = State.reset.seed := ⟨rfl, rfl, rfl⟩

theorem witness_ResetForgetsEverythingBefore :
    filled.faulted = none ∧
    ∃ t, Host.Core.run core 2 { State.construct filled.seed with pending := [.update [2, 0]] } = .next t := ⟨rfl, ⟨_, rfl⟩⟩

end Sys2Proof.Tests
end

section
/-! The Read and LatchAddress ticks (spec/40_bus_protocol.md R102, R104, R106): each is its bus action on an edge, nothing off
the edge, and then the mode update and the divider. -/

namespace Sys2Proof.Machine

/-- A running transition of a chip that is not faulted is the function's. -/
theorem running_of_not_faulted {s : State} (h : s.faulted = none) (f : State → State) : s.running f = .next (f s) :=
  running_eq_next.mpr ⟨h, rfl⟩

/-- A tick is an edge exactly when the previous mode is Inactive (R102). -/
theorem armed_iff (s : State) : s.armed = true ↔ s.chip.mode = .inactive := beq_iff_eq

/-- The latched address as a number: `DA[7:4]` is ignored (R106). -/
theorem latchField_eq_ofNat (v : Byte) : latchField v = BitVec.ofNat 4 (v.toNat % 16) := by
  rw [← latchField_toNat, BitVec.ofNat_toNat, BitVec.setWidth_eq]

/-- The end of a tick changes the chip alone (R107, R110). -/
theorem finishTick_eq (m : Mode) (s : State) :
    s.finishTick m = { s with chip := { s.chip with mode := m }.advanceDivider } := rfl

/-- The Read edge's action changes `DA` alone (R104). -/
theorem readAction_eq (s : State) :
    readAction s = { s with chip := { s.chip with da := regRead s.chip.addr s.chip } } := rfl

/-- The LatchAddress edge's action changes the latched address alone (R106). -/
theorem latchAction_eq (s : State) :
    latchAction s = { s with chip := { s.chip with addr := BitVec.ofNat 4 (s.chip.da.toNat % 16) } } := by
  rw [← latchField_eq_ofNat]
  rfl

/-- Settles O8, by cases on whether the tick is an edge. -/
theorem readTickActsOnTheEdgeOnly : Obligations.ReadTickActsOnTheEdgeOnly := by
  intro s hf
  rw [exec_busRead, running_of_not_faulted hf]
  by_cases h : s.chip.mode = .inactive
  · simp only [armed_iff, h, if_true, readAction_eq, finishTick_eq]
  · simp only [armed_iff, h, if_false, finishTick_eq]

/-- Settles O10, by cases on whether the tick is an edge. -/
theorem latchTickActsOnTheEdgeOnly : Obligations.LatchTickActsOnTheEdgeOnly := by
  intro s hf
  rw [exec_busLatch, running_of_not_faulted hf]
  by_cases h : s.chip.mode = .inactive
  · simp only [armed_iff, h, if_true, latchAction_eq, finishTick_eq]
  · simp only [armed_iff, h, if_false, finishTick_eq]

end Sys2Proof.Machine
end

section
/-! The register reads of the tone and envelope periods (spec/41_register_access.md R160, R162, R164, R171, R172): every read
instruction loads `RegRead` of its register into `DA`, and each such value is a byte of a period. -/

namespace Sys2Proof.Machine

/-- A read instruction on a chip that is not faulted loads the register's value into `DA` and changes nothing else (R104, R140). -/
theorem exec_readInstr_of_not_faulted {s : State} (hf : s.faulted = none) (r : RegName) :
    exec (readInstr r) s = .next { s with chip := { s.chip with da := regRead r.addr s.chip } } := by
  have hrun := exec_readInstr r.addr s
  rw [ofAddr_addr, running_of_not_faulted hf] at hrun
  exact hrun

theorem regRead_toneALo (c : Chip) : regRead RegName.toneALo.addr c = toneLowByte c.tone[0].period := rfl
theorem regRead_toneBLo (c : Chip) : regRead RegName.toneBLo.addr c = toneLowByte c.tone[1].period := rfl
theorem regRead_toneCLo (c : Chip) : regRead RegName.toneCLo.addr c = toneLowByte c.tone[2].period := rfl
theorem regRead_envLo (c : Chip) : regRead RegName.envLo.addr c = envLowByte c.env.period := rfl
theorem regRead_envHi (c : Chip) : regRead RegName.envHi.addr c = envHighByte c.env.period := rfl

/-- The low byte of a tone period as a number (R87). -/
theorem toneLowByte_eq_ofNat (p : BitVec 12) : toneLowByte p = BitVec.ofNat 8 (p.toNat % 256) := by
  rw [← toneLowByte_toNat, BitVec.ofNat_toNat, BitVec.setWidth_eq]

/-- The low byte of the envelope period as a number (R92). -/
theorem envLowByte_eq_ofNat (p : BitVec 16) : envLowByte p = BitVec.ofNat 8 (p.toNat % 256) := by
  rw [← envLowByte_toNat, BitVec.ofNat_toNat, BitVec.setWidth_eq]

/-- The high byte of the envelope period as a number (R92). -/
theorem envHighByte_eq_ofNat (p : BitVec 16) : envHighByte p = BitVec.ofNat 8 (p.toNat / 256) := by
  rw [← envHighByte_toNat, BitVec.ofNat_toNat, BitVec.setWidth_eq]

/-- Settles O13: the three reads are the reads of registers 0, 2 and 4, whose values are low bytes of a period. -/
theorem toneLowReadsReturnPeriodLowByte : Obligations.ToneLowReadsReturnPeriodLowByte := by
  intro s hf
  simp only [← toneLowByte_eq_ofNat, ← regRead_toneALo, ← regRead_toneBLo, ← regRead_toneCLo]
  exact ⟨exec_readInstr_of_not_faulted hf .toneALo, exec_readInstr_of_not_faulted hf .toneBLo,
    exec_readInstr_of_not_faulted hf .toneCLo⟩

/-- Settles O16: the two reads are the reads of registers 11 and 12, whose values are the bytes of the envelope period. -/
theorem envPeriodReadsReturnItsBytes : Obligations.EnvPeriodReadsReturnItsBytes := by
  intro s hf
  rw [← envLowByte_eq_ofNat, ← envHighByte_eq_ofNat, ← regRead_envLo, ← regRead_envHi]
  exact ⟨exec_readInstr_of_not_faulted hf .envLo, exec_readInstr_of_not_faulted hf .envHi⟩

end Sys2Proof.Machine
end

section
/-! One clock of a tone generator (spec/42_tone.md R201). -/

namespace Sys2Proof.Machine

/-- Settles O38, by the two cases of a tone clock: the counter goes down, or it expires and is reloaded. -/
theorem toneClockCountsAndFlipsOnExpiry : Obligations.ToneClockCountsAndFlipsOnExpiry := by
  intro t h
  obtain ⟨hne, hclock⟩ | ⟨heq, hclock⟩ := tone_clock_cases t h
  · have hcount : (t.cnt - 1).toNat = t.cnt.toNat - 1 := countdown_toNat (by decide) t.cnt h
    rw [hclock]
    exact ⟨fun _ => ⟨hcount, rfl, rfl⟩, fun heq => absurd heq hne⟩
  · have hreload : (reload t.period).toNat = max t.period.toNat 1 := reload_toNat (by decide) t.period
    rw [hclock]
    exact ⟨fun hne => absurd heq hne, fun _ => ⟨hreload, rfl, rfl⟩⟩

end Sys2Proof.Machine
end

section
/-! The amplitude control, the channel gate and the mixer (spec/45_amplitude_mixer.md R280-R284). -/

namespace Sys2Proof.Machine

theorem volume_of_fixed {c : Chip} {i : Channel} (h : c.amp[i].mode = .fixed) : c.volume i = c.amp[i].vol := by
  rw [Chip.volume, h]

theorem volume_of_envelope {c : Chip} {i : Channel} (h : c.amp[i].mode = .envelope) : c.volume i = c.env.level := by
  rw [Chip.volume, h]

/-- Settles O48: one lemma per amplitude mode. -/
theorem volumeIsFixedOrTheSharedLevel : Obligations.VolumeIsFixedOrTheSharedLevel :=
  fun _ _ => ⟨volume_of_fixed, volume_of_envelope⟩

/-- The noise bit is the register's low bit (R282). -/
theorem noise_value_iff (g : Noise) : g.value = true ↔ g.lfsr.toNat % 2 = 1 := by
  rw [Noise.value, ← BitVec.testBit_toNat, Nat.testBit_zero, decide_eq_true_iff]

/-- A signal counts as its own bit, or as 1 where it is neither enabled nor overridden (R282). -/
theorem signal_iff (bit en ovr : Bool) :
    (bit || !(en || ovr)) = true ↔ bit = true ∨ (en = false ∧ ovr = false) := by
  rw [Bool.or_eq_true, Bool.not_eq_true', Bool.or_eq_false_iff]

theorem effTone_iff (c : Chip) (i : Channel) :
    c.effTone i = true ↔ c.tone[i].out = true ∨ (c.chan[i].toneEn = false ∧ c.chan[i].toneOvr = false) :=
  signal_iff _ _ _

theorem effNoise_iff (c : Chip) (i : Channel) :
    c.effNoise i = true ↔
      c.noise.lfsr.toNat % 2 = 1 ∨ (c.chan[i].noiseEn = false ∧ c.chan[i].noiseOvr = false) := by
  rw [← noise_value_iff]
  exact signal_iff _ _ _

/-- Settles O49: the gate is open when both effective bits are 1. -/
theorem gateIsToneAndNoise : Obligations.GateIsToneAndNoise := by
  intro c i
  rw [Chip.gate, Bool.and_eq_true, effTone_iff, effNoise_iff]

theorem chanNum_of_gate_open {c : Chip} {i : Channel} (h : c.gate i = true) : c.chanNum i = (c.volume i).toNat :=
  if_pos h

theorem chanNum_of_gate_closed {c : Chip} {i : Channel} (h : c.gate i = false) :
    c.chanNum i = -((c.volume i).toNat : Int) :=
  if_neg (Bool.eq_false_iff.mp h)

theorem chanSample_of_gate_open {c : Chip} {i : Channel} (h : c.gate i = true) : c.chanSample i = c.normVol i :=
  if_pos h

theorem chanSample_of_gate_closed {c : Chip} {i : Channel} (h : c.gate i = false) : c.chanSample i = -c.normVol i :=
  if_neg (Bool.eq_false_iff.mp h)

/-- The gate chooses the sign alone (R283). -/
theorem abs_chanNum (c : Chip) (i : Channel) : |c.chanNum i| = (c.volume i).toNat := by
  cases h : c.gate i with
  | false => rw [chanNum_of_gate_closed h, abs_neg, Nat.abs_cast]
  | true => rw [chanNum_of_gate_open h, Nat.abs_cast]

/-- The volume's four bits bound the channel numerator (R283). -/
theorem abs_chanNum_le (c : Chip) (i : Channel) : |c.chanNum i| ≤ 15 := by
  have hvol : (c.volume i).toNat ≤ 15 := Nat.le_of_lt_succ (c.volume i).isLt
  rw [abs_chanNum]
  exact_mod_cast hvol

/-- The sign may be taken before or after the division by 15 (R281, R283). -/
theorem chanSample_eq_chanNum_div (c : Chip) (i : Channel) : c.chanSample i = (c.chanNum i : Rat) / 15 := by
  cases h : c.gate i with
  | false =>
    rw [chanSample_of_gate_closed h, chanNum_of_gate_closed h, Int.cast_neg, Int.cast_natCast, neg_div, Chip.normVol]
  | true => rw [chanSample_of_gate_open h, chanNum_of_gate_open h, Int.cast_natCast, Chip.normVol]

/-- The channel sample lies in `[-1, 1]` (R283). -/
theorem abs_chanSample_le_one (c : Chip) (i : Channel) : |c.chanSample i| ≤ 1 := by
  have hnum : |(c.chanNum i : Rat)| ≤ 15 := by exact_mod_cast abs_chanNum_le c i
  rw [chanSample_eq_chanNum_div, abs_div, Nat.abs_ofNat]
  exact (div_le_one (by norm_num)).mpr hnum

/-- Settles O50, from the numerator in each state of the gate and the bounds of numerator and sample. -/
theorem channelSampleIsSignedVolume : Obligations.ChannelSampleIsSignedVolume := by
  intro c i
  obtain ⟨hnumLo, hnumHi⟩ := abs_le.mp (abs_chanNum_le c i)
  obtain ⟨hsampleLo, hsampleHi⟩ := abs_le.mp (abs_chanSample_le_one c i)
  exact ⟨chanNum_of_gate_open, chanNum_of_gate_closed, hnumLo, hnumHi, chanSample_eq_chanNum_div c i,
    hsampleLo, hsampleHi⟩

/-- Three channel numerators of at most 15 sum to at most 45 (R284). -/
theorem abs_sampleNum_le (c : Chip) : |c.sampleNum| ≤ 45 :=
  calc |c.sampleNum|
    _ ≤ |c.chanNum 0| + |c.chanNum 1| + |c.chanNum 2| := abs_add_three _ _ _
    _ ≤ 15 + 15 + 15 := add_le_add_three (abs_chanNum_le c 0) (abs_chanNum_le c 1) (abs_chanNum_le c 2)
    _ = 45 := rfl

/-- The mean of three samples over 15 is the sum of their numerators over 45 (R284). -/
theorem psgSample_eq_sampleNum_div (c : Chip) : c.psgSample = (c.sampleNum : Rat) / 45 := by
  simp only [Chip.psgSample, chanSample_eq_chanNum_div, Chip.sampleNum, Int.cast_add]
  ring

/-- No operand of the mix is the divider (R284). -/
theorem sampleNum_withDiv (c : Chip) (d : Fin 16) : ({ c with div := d } : Chip).sampleNum = c.sampleNum := rfl

/-- Settles O51: the sum and the mean are the definitions, and the rest is the bound, the common denominator and the divider. -/
theorem chipSampleIsTheMeanOfTheChannels : Obligations.ChipSampleIsTheMeanOfTheChannels := by
  intro c
  obtain ⟨hlo, hhi⟩ := abs_le.mp (abs_sampleNum_le c)
  exact ⟨rfl, hlo, hhi, rfl, psgSample_eq_sampleNum_div c, sampleNum_withDiv c⟩

end Sys2Proof.Machine
end

section
/-! The decoder and the encoder (spec/30_encoding.md R81-R83, R95): a word that fits its format decodes to the one instruction
whose encoded word it is, and every other word is rejected by name. -/

namespace Sys2Proof.Machine

/-- The read of a register has the word `{0, A}` (R83). -/
theorem encode_readInstr (r : RegName) : encode (readInstr r) = ⟨.regop, r.addr.toNat⟩ := by
  cases r <;> rfl

/-- The write of a register has the word `{1, A}` (R83). -/
theorem encode_writeInstr (r : RegName) : encode (writeInstr r) = ⟨.regop, 16 + r.addr.toNat⟩ := by
  cases r <;> rfl

/-- Bit 4 of a word below 32 says whether it is a write word or a read word (R83). -/
theorem regop_word_cases {w : Nat} (h : w < 32) : (∃ a : Addr, w = a.toNat) ∨ ∃ a : Addr, w = 16 + a.toNat := by
  by_cases hw : w < 16
  · exact .inl ⟨BitVec.ofNat 4 w, by rw [BitVec.toNat_ofNat]; omega⟩
  · exact .inr ⟨BitVec.ofNat 4 (w - 16), by rw [BitVec.toNat_ofNat]; omega⟩

/-- The word `{0, a}` is the read of the register at `a`. -/
theorem decode_regop_read (a : Addr) : decode ⟨.regop, a.toNat⟩ = .ok (readInstr (RegName.ofAddr a)) := by
  revert a
  decide

/-- The word `{1, a}` is the write of the register at `a`. -/
theorem decode_regop_write (a : Addr) : decode ⟨.regop, 16 + a.toNat⟩ = .ok (writeInstr (RegName.ofAddr a)) := by
  revert a
  decide

/-- Encoding and then decoding gives the instruction back. -/
theorem decode_encode (i : Instr) : decode (encode i) = .ok i := by
  obtain rfl | rfl | rfl | rfl | ⟨r, rfl⟩ | ⟨r, rfl⟩ := instr_cases i
  · rfl
  · rfl
  · rfl
  · rfl
  · rw [encode_readInstr, decode_regop_read, ofAddr_addr]
  · rw [encode_writeInstr, decode_regop_write, ofAddr_addr]

/-- Two instructions never share a word. -/
theorem encode_injective {i j : Instr} (h : encode i = encode j) : i = j := by
  have hok : (.ok i : Except DecodeError Instr) = .ok j := by rw [← decode_encode i, ← decode_encode j, h]
  exact Except.ok.inj hok

/-- The instruction of the word `{1, a}` is the write of the register at `a` alone. -/
theorem encode_eq_write_iff (i : Instr) (a : Addr) :
    encode i = ⟨.regop, 16 + a.toNat⟩ ↔ i = writeInstr (RegName.ofAddr a) := by
  have hword : encode (writeInstr (RegName.ofAddr a)) = ⟨.regop, 16 + a.toNat⟩ := by
    rw [encode_writeInstr, addr_ofAddr]
  exact ⟨fun h => encode_injective (h.trans hword.symm), fun h => h ▸ hword⟩

/-- A BUS word of more than two bits is rejected by name (R342). -/
theorem decode_bus_of_ge {w : Nat} (h : 4 ≤ w) : decode ⟨.bus, w⟩ = .error (.noSuchMode w) := by
  obtain ⟨n, rfl⟩ := Nat.exists_eq_add_of_le' h
  rfl

/-- A REGOP word of more than five bits is rejected by name (R342). -/
theorem decode_regop_of_ge {w : Nat} (h : 32 ≤ w) : decode ⟨.regop, w⟩ = .error (.noSuchRegister w) :=
  if_neg (Nat.not_lt.mpr h)

/-- A BUS word fits its format below 4 (R81). -/
theorem bus_wf_iff (w : Nat) : CodeWord.wf ⟨.bus, w⟩ = true ↔ w < 4 := decide_eq_true_iff

/-- A REGOP word fits its format below 32 (R83). -/
theorem regop_wf_iff (w : Nat) : CodeWord.wf ⟨.regop, w⟩ = true ↔ w < 32 := decide_eq_true_iff

/-- A word that decodes fits its format: a wider one is rejected. -/
theorem wf_of_decode_ok {w : CodeWord} {i : Instr} (h : decode w = .ok i) : w.wf = true := by
  obtain ⟨format, bits⟩ := w
  cases format with
  | bus =>
    refine (bus_wf_iff bits).mpr (Nat.lt_of_not_le fun hbits => ?_)
    simp [decode_bus_of_ge hbits] at h
  | regop =>
    refine (regop_wf_iff bits).mpr (Nat.lt_of_not_le fun hbits => ?_)
    simp [decode_regop_of_ge hbits] at h

/-- Every word that fits its format is the encoded word of some instruction. -/
theorem exists_encode_of_wf {w : CodeWord} (h : w.wf = true) : ∃ i, encode i = w := by
  obtain ⟨format, bits⟩ := w
  cases format with
  | bus =>
    match bits, (bus_wf_iff bits).mp h with
    | 0, _ => exact ⟨.busInactive, rfl⟩
    | 1, _ => exact ⟨.busRead, rfl⟩
    | 2, _ => exact ⟨.busWrite, rfl⟩
    | 3, _ => exact ⟨.busLatch, rfl⟩
  | regop =>
    obtain ⟨a, rfl⟩ | ⟨a, rfl⟩ := regop_word_cases ((regop_wf_iff bits).mp h)
    · exact ⟨readInstr (RegName.ofAddr a), by rw [encode_readInstr, addr_ofAddr]⟩
    · exact ⟨writeInstr (RegName.ofAddr a), by rw [encode_writeInstr, addr_ofAddr]⟩

/-- A word decodes to an instruction exactly when it is that instruction's encoded word. -/
theorem decode_eq_ok_iff (w : CodeWord) (i : Instr) : decode w = .ok i ↔ w = encode i := by
  constructor
  · intro h
    obtain ⟨j, rfl⟩ := exists_encode_of_wf (wf_of_decode_ok h)
    rw [decode_encode] at h
    rw [Except.ok.inj h]
  · rintro rfl
    exact decode_encode i

/-- Settles O2: the encoder's words are exactly the words that fit their format, and each decodes to its own instruction. -/
theorem decodeAndEncodeAreInverse : Obligations.DecodeAndEncodeAreInverse := by
  refine ⟨fun i _ => decode_encode i, fun w i => (decode_eq_ok_iff w i).mp, fun w => ⟨?_, fun h => ?_⟩⟩
  · rintro ⟨i, h⟩
    exact wf_of_decode_ok h
  · obtain ⟨i, rfl⟩ := exists_encode_of_wf h
    exact ⟨i, decode_encode i⟩

/-- Settles O1: each of the eight words is its instruction's encoded word. -/
theorem tableWordsDecodeToTheirRows : Obligations.TableWordsDecodeToTheirRows :=
  ⟨decode_encode .busInactive, decode_encode .busRead, decode_encode .busWrite, decode_encode .busLatch,
    decode_encode .rd0ToneALo, decode_encode .rd13EnvShape, decode_encode .wr7Mixer, decode_encode .wr15IoB⟩

/-- Settles O3, one lemma per format. -/
theorem outOfRangeWordsRejectedByName : Obligations.OutOfRangeWordsRejectedByName :=
  ⟨fun _ => decode_bus_of_ge, fun _ => decode_regop_of_ge⟩

end Sys2Proof.Machine
end

section
/-! What an instruction can do and what it leaves alone (spec/41_register_access.md R140, R141; spec/40_bus_protocol.md
R100-R107): the cases of a next state, and the frame of `RegWrite` and of the end of a tick, field by field. -/

namespace Sys2Proof.Machine

/-! ### The cases of a next state -/

/-- Every address is some register's. -/
theorem exists_addr_eq (a : Addr) : ∃ r : RegName, r.addr = a := ⟨_, addr_ofAddr a⟩

theorem exec_readInstr_addr (r : RegName) (s : State) :
    exec (readInstr r) s = s.running fun s => s.loadDA (regRead r.addr) := by
  rw [← exec_readInstr, ofAddr_addr]

theorem exec_writeInstr_addr (r : RegName) (s : State) :
    exec (writeInstr r) s = s.running fun s => regWrite r.addr s.chip.da s := by
  rw [← exec_writeInstr, ofAddr_addr]

/-- A tick that performs no bus action: a tick into Inactive, or one that is no edge (R103). -/
def PlainTick (i : Instr) (s : State) : Prop :=
  (encode i).format = .bus ∧ (s.chip.mode = .inactive → i = .busInactive)

/-- A tick with a bus action acts on an edge and only ends the tick off the edge (R102). -/
theorem edge_tick_cases {s t : State} {act : State → State} {m : Mode}
    (h : (s.running fun s => (if s.armed then act s else s).finishTick m) = .next t) :
    (s.chip.mode = .inactive ∧ t = (act s).finishTick m) ∨ (s.chip.mode ≠ .inactive ∧ t = s.finishTick m) := by
  obtain ⟨-, rfl⟩ := running_eq_next.mp h
  by_cases hm : s.chip.mode = .inactive
  · exact .inl ⟨hm, by simp only [armed_iff, hm, if_true]⟩
  · exact .inr ⟨hm, by simp only [armed_iff, hm, if_false]⟩

/-- Where an instruction answers a next state, the chip was not faulted, and the instruction was a register read, a register
write, a tick without bus action, or a Read, Write or LatchAddress edge. -/
theorem exec_next_cases {i : Instr} {s t : State} (h : exec i s = .next t) :
    s.faulted = none ∧
    ((∃ r, i = readInstr r ∧ t = s.loadDA (regRead r.addr)) ∨
      (∃ r, i = writeInstr r ∧ t = regWrite r.addr s.chip.da s) ∨
      (PlainTick i s ∧ ∃ m, t = s.finishTick m) ∨
      (i = .busRead ∧ s.chip.mode = .inactive ∧ t = (readAction s).finishTick .read) ∨
      (i = .busWrite ∧ s.chip.mode = .inactive ∧ t = (writeAction s).finishTick .write) ∨
      (i = .busLatch ∧ s.chip.mode = .inactive ∧ t = (latchAction s).finishTick .latchAddress)) := by
  obtain ⟨f, hrun⟩ := exec_running i
  refine ⟨(running_eq_next.mp ((hrun s).symm.trans h)).1, ?_⟩
  obtain rfl | rfl | rfl | rfl | ⟨r, rfl⟩ | ⟨r, rfl⟩ := instr_cases i
  · rw [exec_busInactive] at h
    exact .inr (.inr (.inl ⟨⟨rfl, fun _ => rfl⟩, _, (running_eq_next.mp h).2⟩))
  · rw [exec_busRead] at h
    obtain ⟨hm, ht⟩ | ⟨hm, ht⟩ := edge_tick_cases h
    · exact .inr (.inr (.inr (.inl ⟨rfl, hm, ht⟩)))
    · exact .inr (.inr (.inl ⟨⟨rfl, fun hm' => absurd hm' hm⟩, _, ht⟩))
  · rw [exec_busWrite] at h
    obtain ⟨hm, ht⟩ | ⟨hm, ht⟩ := edge_tick_cases h
    · exact .inr (.inr (.inr (.inr (.inl ⟨rfl, hm, ht⟩))))
    · exact .inr (.inr (.inl ⟨⟨rfl, fun hm' => absurd hm' hm⟩, _, ht⟩))
  · rw [exec_busLatch] at h
    obtain ⟨hm, ht⟩ | ⟨hm, ht⟩ := edge_tick_cases h
    · exact .inr (.inr (.inr (.inr (.inr ⟨rfl, hm, ht⟩))))
    · exact .inr (.inr (.inl ⟨⟨rfl, fun hm' => absurd hm' hm⟩, _, ht⟩))
  · rw [exec_readInstr_addr] at h
    exact .inl ⟨r, rfl, (running_eq_next.mp h).2⟩
  · rw [exec_writeInstr_addr] at h
    exact .inr (.inl ⟨r, rfl, (running_eq_next.mp h).2⟩)

/-! ### One element of a vector of channels -/

/-- What is read at `j` after a change at `i`. -/
theorem getElem_set_fin {α : Type} {n : Nat} (v : Vector α n) (i j : Fin n) (x : α) :
    (v.set i.val x)[j] = if j = i then x else v[j] := by
  by_cases h : j = i
  · subst h
    simp
  · have hne : i.val ≠ j.val := fun e => h (Fin.ext e.symm)
    simp [h, hne]

theorem mapTone_getElem (c : Chip) (i j : Channel) (f : Tone → Tone) :
    (c.mapTone i f).tone[j] = if j = i then f c.tone[j] else c.tone[j] := by
  rw [mapTone_tone, getElem_set_fin]
  split
  · next h => rw [h]
  · rfl

theorem mapAmp_getElem (c : Chip) (i j : Channel) (f : Amp → Amp) :
    (c.mapAmp i f).amp[j] = if j = i then f c.amp[j] else c.amp[j] := by
  rw [mapAmp_amp, getElem_set_fin]
  split
  · next h => rw [h]
  · rfl

theorem mapChan_getElem (c : Chip) (i j : Channel) (f : Chan → Chan) :
    (c.mapChan i f).chan[j] = if j = i then f c.chan[j] else c.chan[j] := by
  rw [mapChan_chan, getElem_set_fin]
  split
  · next h => rw [h]
  · rfl

/-- A change of a tone generator that keeps a field of it keeps that field of all three. -/
theorem mapTone_keeps {β : Type} (g : Tone → β) (c : Chip) (i : Channel) {f : Tone → Tone}
    (hf : ∀ t, g (f t) = g t) (j : Channel) : g (c.mapTone i f).tone[j] = g c.tone[j] := by
  rw [mapTone_getElem]
  split
  · exact hf _
  · rfl

/-- A change of a channel that keeps a field of it keeps that field of all three. -/
theorem mapChan_keeps {β : Type} (g : Chan → β) (c : Chip) (i : Channel) {f : Chan → Chan}
    (hf : ∀ h, g (f h) = g h) (j : Channel) : g (c.mapChan i f).chan[j] = g c.chan[j] := by
  rw [mapChan_getElem]
  split
  · exact hf _
  · rfl

/-! ### The frame of `RegWrite` (R141) -/

/-- The mixer write changes the chip's backing byte and channels, and the diagnostics (R149, R341). -/
theorem regWrite_mixer (v : Byte) (s : State) :
    regWrite RegName.mixer.addr v s =
      { s with
        chip := (((s.chip.setReg 7 v).mapChan 0 fun h => h.withMixer v 0).mapChan 1 fun h => h.withMixer v 1).mapChan 2
          fun h => h.withMixer v 2
        diag := if asksIoControl v then s.diag ++ [.unsupportedConfig 7 v] else s.diag } := by
  change writeMixer v s = _
  unfold writeMixer
  split <;> rfl

/-- A register write touches neither the terminal marker nor the model's own fields. -/
@[simp] theorem regWrite_hostSide (a : Addr) (v : Byte) (s : State) :
    (regWrite a v s).faulted = s.faulted ∧ (regWrite a v s).pending = s.pending ∧
    (regWrite a v s).replies = s.replies ∧ (regWrite a v s).seed = s.seed := by
  obtain ⟨r, rfl⟩ := exists_addr_eq a
  cases r with
  | mixer => rw [regWrite_mixer]; exact ⟨rfl, rfl, rfl, rfl⟩
  | _ => exact ⟨rfl, rfl, rfl, rfl⟩

/-- A register write keeps the bus state and the divider, and stores its byte (D7). -/
@[simp] theorem regWrite_bus (a : Addr) (v : Byte) (s : State) :
    (regWrite a v s).chip.mode = s.chip.mode ∧ (regWrite a v s).chip.addr = s.chip.addr ∧
    (regWrite a v s).chip.da = s.chip.da ∧ (regWrite a v s).chip.div = s.chip.div ∧
    (regWrite a v s).chip.regs = (s.chip.setReg a v).regs := by
  obtain ⟨r, rfl⟩ := exists_addr_eq a
  cases r with
  | mixer => rw [regWrite_mixer]; exact ⟨rfl, rfl, rfl, rfl, rfl⟩
  | _ => exact ⟨rfl, rfl, rfl, rfl, rfl⟩

/-- A register write touches no counter of the noise and envelope generators and no shift register (D5). -/
@[simp] theorem regWrite_noise_env (a : Addr) (v : Byte) (s : State) :
    (regWrite a v s).chip.noise.cnt = s.chip.noise.cnt ∧ (regWrite a v s).chip.noise.lfsr = s.chip.noise.lfsr ∧
    (regWrite a v s).chip.env.cnt = s.chip.env.cnt := by
  obtain ⟨r, rfl⟩ := exists_addr_eq a
  cases r with
  | mixer => rw [regWrite_mixer]; exact ⟨rfl, rfl, rfl⟩
  | _ => exact ⟨rfl, rfl, rfl⟩

/-- A register write touches no tone generator but in its period (D5). -/
theorem regWrite_tone_keeps {β : Type} (g : Tone → β) (hg : ∀ t p, g { t with period := p } = g t) (a : Addr) (v : Byte)
    (s : State) (j : Channel) : g (regWrite a v s).chip.tone[j] = g s.chip.tone[j] := by
  obtain ⟨r, rfl⟩ := exists_addr_eq a
  cases r with
  | toneALo | toneAHi | toneBLo | toneBHi | toneCLo | toneCHi => exact mapTone_keeps g _ _ (fun _ => hg _ _) j
  | mixer => rw [regWrite_mixer]; rfl
  | _ => rfl

theorem regWrite_tone_cnt (a : Addr) (v : Byte) (s : State) (j : Channel) :
    (regWrite a v s).chip.tone[j].cnt = s.chip.tone[j].cnt :=
  regWrite_tone_keeps Tone.cnt (fun _ _ => rfl) a v s j

theorem regWrite_tone_out (a : Addr) (v : Byte) (s : State) (j : Channel) :
    (regWrite a v s).chip.tone[j].out = s.chip.tone[j].out :=
  regWrite_tone_keeps Tone.out (fun _ _ => rfl) a v s j

/-- The shape write restarts the envelope with the new shape (R155). -/
theorem regWrite_envShape_env (v : Byte) (s : State) :
    (regWrite 13 v s).chip.env = { s.chip.env with shape := shapeField v }.restart := rfl

/-- No other write touches the envelope's shape, step or direction. -/
theorem regWrite_env_of_ne {a : Addr} (h : a ≠ 13) (v : Byte) (s : State) :
    (regWrite a v s).chip.env.shape = s.chip.env.shape ∧ (regWrite a v s).chip.env.step = s.chip.env.step ∧
    (regWrite a v s).chip.env.dir = s.chip.env.dir := by
  obtain ⟨r, rfl⟩ := exists_addr_eq a
  cases r with
  | envShape => exact absurd rfl h
  | mixer => rw [regWrite_mixer]; exact ⟨rfl, rfl, rfl⟩
  | _ => exact ⟨rfl, rfl, rfl⟩

/-- A register write keeps the debug overrides (R149). -/
theorem regWrite_overrides (a : Addr) (v : Byte) (s : State) (j : Channel) :
    (regWrite a v s).chip.chan[j].toneOvr = s.chip.chan[j].toneOvr ∧
    (regWrite a v s).chip.chan[j].noiseOvr = s.chip.chan[j].noiseOvr := by
  obtain ⟨r, rfl⟩ := exists_addr_eq a
  cases r with
  | mixer =>
    have hkeep : ∀ g : Chan → Bool, (∀ h n, g (h.withMixer v n) = g h) →
        g (regWrite RegName.mixer.addr v s).chip.chan[j] = g s.chip.chan[j] := by
      intro g hg
      rw [regWrite_mixer, mapChan_keeps g _ _ (fun _ => hg _ _), mapChan_keeps g _ _ (fun _ => hg _ _),
        mapChan_keeps g _ _ (fun _ => hg _ _), setReg_chan]
    exact ⟨hkeep Chan.toneOvr fun _ _ => rfl, hkeep Chan.noiseOvr fun _ _ => rfl⟩
  | _ => exact ⟨rfl, rfl⟩

/-- No write but the mixer's touches a channel's flags. -/
theorem regWrite_chan_of_ne {a : Addr} (h : a ≠ 7) (v : Byte) (s : State) :
    (regWrite a v s).chip.chan = s.chip.chan := by
  obtain ⟨r, rfl⟩ := exists_addr_eq a
  cases r with
  | mixer => exact absurd rfl h
  | _ => rfl

/-- A write touches no amplitude control but the one at its own address. -/
theorem regWrite_amp_of_ne {a : Addr} {j : Channel} (h : a.toNat ≠ 8 + j.val) (v : Byte) (s : State) :
    (regWrite a v s).chip.amp[j] = s.chip.amp[j] := by
  have hother : ∀ i : Channel, a.toNat = 8 + i.val → j ≠ i := fun i ha hj => h (hj ▸ ha)
  obtain ⟨r, rfl⟩ := exists_addr_eq a
  cases r with
  | ampA => exact (mapAmp_getElem _ 0 j _).trans (if_neg (hother 0 rfl))
  | ampB => exact (mapAmp_getElem _ 1 j _).trans (if_neg (hother 1 rfl))
  | ampC => exact (mapAmp_getElem _ 2 j _).trans (if_neg (hother 2 rfl))
  | mixer => rw [regWrite_mixer]; rfl
  | _ => rfl

/-- The diagnostic comes from the mixer write with bit 6 or 7 set alone (R341). -/
theorem regWrite_diag (a : Addr) (v : Byte) (s : State) :
    (regWrite a v s).diag = if a = 7 ∧ 64 ≤ v.toNat then s.diag ++ [.unsupportedConfig 7 v] else s.diag := by
  by_cases ha : a = 7
  · subst ha
    have hmixer : (regWrite 7 v s).diag = if asksIoControl v then s.diag ++ [.unsupportedConfig 7 v] else s.diag :=
      congrArg State.diag (regWrite_mixer v s)
    simp only [hmixer, asksIoControl_iff, true_and]
  · rw [if_neg fun h => ha h.1]
    obtain ⟨r, rfl⟩ := exists_addr_eq a
    cases r with
    | mixer => exact absurd rfl ha
    | _ => rfl

/-- The register file is read through its bytes alone. -/
theorem reg_congr {c d : Chip} (h : c.regs = d.regs) (a : Addr) : c.reg a = d.reg a := by
  rw [Chip.reg, Chip.reg, h]

/-- The byte of the register file after a write (R22, D7). -/
theorem regWrite_reg (a b : Addr) (v : Byte) (s : State) :
    (regWrite a v s).chip.reg b = if a = b then v else s.chip.reg b := by
  have hregs : (regWrite a v s).chip.reg b = (s.chip.setReg a v).reg b :=
    reg_congr (by simp) b
  rw [hregs]
  split
  · next h => rw [h, reg_setReg_same]
  · next h => exact reg_setReg_other _ _ (Ne.symm h)

/-! ### The frame of the end of a tick (R107, R110) -/

/-- The end of a tick touches nothing outside the chip. -/
@[simp] theorem finishTick_hostSide (m : Mode) (s : State) :
    (s.finishTick m).faulted = s.faulted ∧ (s.finishTick m).pending = s.pending ∧ (s.finishTick m).replies = s.replies ∧
    (s.finishTick m).seed = s.seed ∧ (s.finishTick m).diag = s.diag := ⟨rfl, rfl, rfl, rfl, rfl⟩

/-- The end of a tick touches no register byte, no enable, no override, no amplitude, and neither `addr` nor `DA`. -/
@[simp] theorem finishTick_chip (m : Mode) (s : State) :
    (s.finishTick m).chip.addr = s.chip.addr ∧ (s.finishTick m).chip.da = s.chip.da ∧
    (s.finishTick m).chip.regs = s.chip.regs ∧ (s.finishTick m).chip.amp = s.chip.amp ∧
    (s.finishTick m).chip.chan = s.chip.chan := by
  simp [finishTick_eq]

@[simp] theorem finishTick_div (m : Mode) (s : State) : (s.finishTick m).chip.div = s.chip.div + 1 := by
  rw [finishTick_eq]
  obtain ⟨-, h⟩ | ⟨hdiv, h⟩ := advanceDivider_cases { s.chip with mode := m }
  · rw [h]
  · have hdiv : s.chip.div = 15 := Fin.ext hdiv
    rw [h, generatorTick_div, hdiv]
    rfl

/-! ### Who stores, and what stays where nobody does -/

/-- The instruction stores `DA` in the register at `a`: it is the write of that register, or a Write edge with `a` latched. -/
def Stores (i : Instr) (s : State) (a : Addr) : Prop :=
  encode i = ⟨.regop, 16 + a.toNat⟩ ∨ i = .busWrite ∧ s.chip.mode = .inactive ∧ s.chip.addr = a

theorem stores_writeInstr_iff (r : RegName) (s : State) (a : Addr) : Stores (writeInstr r) s a ↔ r.addr = a := by
  have htick : writeInstr r ≠ .busWrite := by cases r <;> decide
  simp only [Stores, encode_writeInstr, htick, false_and, or_false, CodeWord.mk.injEq, true_and, Nat.add_left_cancel_iff,
    BitVec.toNat_inj]

theorem stores_busWrite_iff {s : State} (hm : s.chip.mode = .inactive) (a : Addr) :
    Stores .busWrite s a ↔ s.chip.addr = a := by
  simp [Stores, encode, hm]

/-- Instructions that are neither a write's word nor a Write edge store nothing. -/
theorem not_stores_readInstr (r : RegName) (s : State) (a : Addr) : ¬Stores (readInstr r) s a := by
  have htick : readInstr r ≠ .busWrite := by cases r <;> decide
  have hlt := r.addr.isLt
  simp only [Stores, encode_readInstr, htick, false_and, or_false, CodeWord.mk.injEq, true_and]
  omega

theorem not_stores_bus {i : Instr} {s : State} (hbus : (encode i).format = .bus)
    (hedge : ¬(i = .busWrite ∧ s.chip.mode = .inactive)) (a : Addr) : ¬Stores i s a := by
  rintro (he | ⟨hi, hm, -⟩)
  · simp [he] at hbus
  · exact hedge ⟨hi, hm⟩

/-- The register file, the amplitude controls, the channels' flags and the diagnostics of two states agree. -/
def SameStored (t u : State) : Prop :=
  t.chip.regs = u.chip.regs ∧ t.chip.amp = u.chip.amp ∧ t.chip.chan = u.chip.chan ∧ t.diag = u.diag

theorem sameStored_finishTick (m : Mode) (s : State) : SameStored (s.finishTick m) s := by
  simp [SameStored]

/-- Where an instruction answers a next state, either it stores at exactly one address, and what it stores there is
`RegWrite`'s, or it stores nowhere and these fields are kept. -/
theorem exec_store_cases {i : Instr} {s t : State} (h : exec i s = .next t) :
    (∃ a, (∀ b, Stores i s b ↔ a = b) ∧ SameStored t (regWrite a s.chip.da s)) ∨
    (∀ b, ¬Stores i s b) ∧ SameStored t s := by
  obtain ⟨-, ⟨r, rfl, rfl⟩ | ⟨r, rfl, rfl⟩ | ⟨⟨hbus, hidle⟩, m, rfl⟩ | ⟨rfl, -, rfl⟩ | ⟨rfl, hm, rfl⟩ | ⟨rfl, -, rfl⟩⟩ :=
    exec_next_cases h
  · exact .inr ⟨not_stores_readInstr r s, rfl, rfl, rfl, rfl⟩
  · exact .inl ⟨r.addr, stores_writeInstr_iff r s, rfl, rfl, rfl, rfl⟩
  · refine .inr ⟨not_stores_bus hbus ?_, sameStored_finishTick m s⟩
    rintro ⟨rfl, hm⟩
    exact absurd (hidle hm) (by decide)
  · exact .inr ⟨not_stores_bus rfl (by simp), sameStored_finishTick _ (readAction s)⟩
  · exact .inl ⟨s.chip.addr, stores_busWrite_iff hm, sameStored_finishTick _ _⟩
  · exact .inr ⟨not_stores_bus rfl (by simp), sameStored_finishTick _ (latchAction s)⟩

/-! ### Frames over every instruction -/

/-- Settles O27, by the cases of a next state. -/
theorem instructionsKeepOverridesAndHostSide : Obligations.InstructionsKeepOverridesAndHostSide := by
  intro i s t h
  obtain ⟨-, ⟨r, -, rfl⟩ | ⟨r, -, rfl⟩ | ⟨-, m, rfl⟩ | ⟨-, -, rfl⟩ | ⟨-, -, rfl⟩ | ⟨-, -, rfl⟩⟩ := exec_next_cases h
  · exact ⟨rfl, rfl, rfl, rfl, fun _ => ⟨rfl, rfl⟩⟩
  · simpa using regWrite_overrides r.addr s.chip.da s
  · simp
  · simp [readAction_eq]
  · simpa [writeAction] using regWrite_overrides s.chip.addr s.chip.da s
  · simp [latchAction_eq]

/-- Settles O28: the byte read is `RegWrite`'s where the instruction stores, and the old one where it does not. -/
theorem registerFileFrame : Obligations.RegisterFileFrame := by
  intro i s t h a
  obtain ⟨b, hstores, hregs, -⟩ | ⟨hnone, hregs, -⟩ := exec_store_cases h
  · rw [reg_congr hregs, regWrite_reg]
    exact if_congr (hstores a).symm rfl rfl
  · rw [reg_congr hregs]
    exact (if_neg (hnone a)).symm

/-- The mixer is the register at address 7. -/
theorem stores_mixer_iff (i : Instr) (s : State) :
    Stores i s 7 ↔ i = .wr7Mixer ∨ i = .busWrite ∧ s.chip.mode = .inactive ∧ s.chip.addr = 7 :=
  or_congr_left (encode_eq_write_iff i 7)

/-- The amplitude control of channel `c` is the register at address 8 + `c`. -/
theorem stores_amp_iff (i : Instr) (s : State) (c : Channel) (a : Addr) (ha : a.toNat = 8 + c.val) :
    Stores i s a ↔ encode i = ⟨.regop, 24 + c.val⟩ ∨
      i = .busWrite ∧ s.chip.mode = .inactive ∧ s.chip.addr.toNat = 8 + c.val := by
  rw [Stores, ← ha, BitVec.toNat_inj, ha, show 16 + (8 + c.val) = 24 + c.val by omega]

/-- The latched address after an instruction (R106). -/
theorem exec_addr {i : Instr} {s t : State} (h : exec i s = .next t) :
    t.chip.addr = if i = .busLatch ∧ s.chip.mode = .inactive then BitVec.ofNat 4 s.chip.da.toNat else s.chip.addr := by
  obtain ⟨-, ⟨r, rfl, rfl⟩ | ⟨r, rfl, rfl⟩ | ⟨⟨hbus, hidle⟩, m, rfl⟩ | ⟨rfl, -, rfl⟩ | ⟨rfl, hm, rfl⟩ | ⟨rfl, hm, rfl⟩⟩ :=
    exec_next_cases h
  · have htick : readInstr r ≠ .busLatch := by cases r <;> decide
    simp [htick, State.loadDA]
  · have htick : writeInstr r ≠ .busLatch := by cases r <;> decide
    simp [htick]
  · have hnot : ¬(i = .busLatch ∧ s.chip.mode = .inactive) := by
      rintro ⟨rfl, hm⟩
      exact absurd (hidle hm) (by decide)
    simp [hnot]
  · simp [readAction_eq]
  · simp [writeAction]
  · have hfield : latchField s.chip.da = BitVec.ofNat 4 s.chip.da.toNat :=
      BitVec.eq_of_toNat_eq (latchField_toNat s.chip.da)
    simp [hm, latchAction, hfield]

/-- Settles O30: the latched address has its own lemma, and the enables and amplitudes change only where a register is stored. -/
theorem addressEnablesAndAmplitudesHaveOneWriter : Obligations.AddressEnablesAndAmplitudesHaveOneWriter := by
  intro i s t h
  refine ⟨exec_addr h, fun hi hedge c => ?_, fun c hi hedge => ?_⟩
  · have hnot : ¬Stores i s 7 := fun hs => ((stores_mixer_iff i s).mp hs).elim hi hedge
    obtain ⟨a, hstores, -, -, hchan, -⟩ | ⟨-, -, -, hchan, -⟩ := exec_store_cases h
    · rw [hchan, regWrite_chan_of_ne fun ha => hnot ((hstores 7).mpr ha)]
      exact ⟨rfl, rfl⟩
    · rw [hchan]
      exact ⟨rfl, rfl⟩
  · obtain ⟨a, hstores, -, hamp, -⟩ | ⟨-, -, hamp, -⟩ := exec_store_cases h
    · have hne : a.toNat ≠ 8 + c.val := fun ha =>
        ((stores_amp_iff i s c a ha).mp ((hstores a).mpr rfl)).elim hi hedge
      rw [hamp, regWrite_amp_of_ne hne]
    · rw [hamp]

/-- Settles O31: the diagnostic is `RegWrite`'s at address 7, and no other instruction emits one. -/
theorem diagnosticComesFromTheMixerAlone : Obligations.DiagnosticComesFromTheMixerAlone := by
  intro i s t h
  obtain ⟨a, hstores, -, -, -, hdiag⟩ | ⟨hnone, -, -, -, hdiag⟩ := exec_store_cases h
  · rw [hdiag, regWrite_diag]
    exact if_congr (and_congr_left' ((hstores 7).symm.trans (stores_mixer_iff i s))) rfl rfl
  · rw [hdiag]
    exact (if_neg fun hs => hnone 7 ((stores_mixer_iff i s).mpr hs.1)).symm

/-- A word of the format REGOP is a register read or a register write. -/
theorem regop_cases {i : Instr} (h : (encode i).format = .regop) : (∃ r, i = readInstr r) ∨ ∃ r, i = writeInstr r := by
  obtain rfl | rfl | rfl | rfl | hrest := instr_cases i
  · exact absurd h (by decide)
  · exact absurd h (by decide)
  · exact absurd h (by decide)
  · exact absurd h (by decide)
  · exact hrest

/-- Settles O29: a read changes `DA` alone, and a write's frame is `RegWrite`'s. -/
theorem registerOperationsLeaveGeneratorsRunning : Obligations.RegisterOperationsLeaveGeneratorsRunning := by
  intro i s t hformat h
  obtain ⟨r, rfl⟩ | ⟨r, rfl⟩ := regop_cases hformat
  · rw [exec_readInstr_addr] at h
    obtain ⟨-, rfl⟩ := running_eq_next.mp h
    exact ⟨rfl, rfl, rfl, fun _ => ⟨rfl, rfl⟩, rfl, rfl, rfl, fun _ => ⟨rfl, rfl, rfl⟩⟩
  · rw [exec_writeInstr_addr] at h
    obtain ⟨-, rfl⟩ := running_eq_next.mp h
    obtain ⟨hmode, haddr, -, hdiv, -⟩ := regWrite_bus r.addr s.chip.da s
    obtain ⟨hcnt, hlfsr, henv⟩ := regWrite_noise_env r.addr s.chip.da s
    refine ⟨hmode, haddr, hdiv, fun c => ⟨regWrite_tone_cnt .., regWrite_tone_out ..⟩, hcnt, hlfsr, henv, fun hshape => ?_⟩
    refine regWrite_env_of_ne (fun ha => hshape ?_) _ _
    rw [← ofAddr_addr r, ha]
    rfl

end Sys2Proof.Machine
end

section
/-! The chip's invariant (spec/10_state.md R31): it holds after reset, and every step keeps it. -/

namespace Sys2Proof.Machine

/-! ### One clock of each generator -/

/-- A counter is never reloaded with 0 (R201, R221, R244). -/
theorem one_le_reload {w : Nat} (hw : 0 < w) (p : BitVec w) : 1 ≤ (reload p).toNat := by
  rw [reload_toNat hw]
  exact le_max_right _ _

/-- A counter that is at least 1 and has not expired is still at least 1 after counting down. -/
theorem one_le_countdown {w : Nat} (hw : 0 < w) (c : BitVec w) (h : 1 ≤ c.toNat) (hne : c.toNat ≠ 1) :
    1 ≤ (c - 1).toNat := by
  rw [countdown_toNat hw c h]
  omega

theorem one_le_tone_clock_cnt {t : Tone} (h : 1 ≤ t.cnt.toNat) : 1 ≤ t.clock.cnt.toNat := by
  obtain ⟨hne, hclock⟩ | ⟨-, hclock⟩ := tone_clock_cases t h <;> rw [hclock]
  · exact one_le_countdown (by decide) t.cnt h hne
  · exact one_le_reload (by decide) t.period

theorem one_le_noise_clock_cnt {g : Noise} (h : 1 ≤ g.cnt.toNat) : 1 ≤ g.clock.cnt.toNat := by
  obtain ⟨hne, hclock⟩ | ⟨-, hclock⟩ := noise_clock_cases g h <;> rw [hclock]
  · exact one_le_countdown (by decide) g.cnt h hne
  · exact one_le_reload (by decide) g.period

/-- The shift register never becomes zero (R224). -/
theorem noise_clock_lfsr_ne_zero {g : Noise} (h : 1 ≤ g.cnt.toNat) (hlfsr : g.lfsr ≠ 0) : g.clock.lfsr ≠ 0 := by
  obtain ⟨-, hclock⟩ | ⟨-, hclock⟩ := noise_clock_cases g h <;> rw [hclock]
  · exact hlfsr
  · exact lfsrNext_ne_zero hlfsr

theorem one_le_env_clock_cnt {e : Env} (h : 1 ≤ e.cnt.toNat) : 1 ≤ e.clock.cnt.toNat := by
  obtain ⟨hne, hclock⟩ | ⟨-, hclock⟩ := env_clock_cases e h <;> rw [hclock]
  · exact one_le_countdown (by decide) e.cnt h hne
  · exact one_le_reload (by decide) e.period

/-- Counting a step up changes bit 4 exactly where the position in the ramp returns to 0. -/
theorem step_succ_bit4 (x : BitVec 5) :
    (x + 1).getLsbD 4 = (x.getLsbD 4 ^^ ((x + 1).extractLsb' 0 4 == 0)) := by
  revert x
  decide

/-- The direction is reversed exactly where bit 4 of the step turns the ramp, so it stays the one R31 gives. -/
theorem advance_dir_eq_expectedDir {e : Env} (h : e.dir = e.expectedDir) : e.advance.dir = e.advance.expectedDir := by
  obtain ⟨-, hadv⟩ | ⟨-, hturn, hadv⟩ | ⟨-, hturn, hadv⟩ := env_advance_cases e <;> rw [hadv]
  · exact h
  · obtain ⟨hcont, hpos⟩ := (Bool.and_eq_true _ _).mp hturn
    simp only [h, Env.expectedDir, step_succ_bit4, hcont, hpos, Bool.true_and, Bool.xor_true, Bool.xor_not]
    cases (attacks e.shape ^^ e.step.getLsbD 4) <;> rfl
  · simp only [h, Env.expectedDir, step_succ_bit4]
    cases hcont : continues e.shape && alternates e.shape with
    | false => simp
    | true =>
      rw [hcont, Bool.true_and] at hturn
      rw [hturn, Bool.xor_false]

theorem env_clock_dir_eq_expectedDir {e : Env} (h : 1 ≤ e.cnt.toNat) (hdir : e.dir = e.expectedDir) :
    e.clock.dir = e.clock.expectedDir := by
  obtain ⟨-, hclock⟩ | ⟨-, hclock⟩ := env_clock_cases e h <;> rw [hclock]
  · exact hdir
  · exact advance_dir_eq_expectedDir hdir

/-- After a restart the direction is the attack bit's, which R31 gives at step 0. -/
theorem restart_dir_eq_expectedDir (e : Env) : e.restart.dir = e.restart.expectedDir := by
  simp [Env.restart, Env.expectedDir]

/-! ### The operations of the chip -/

/-- The invariant speaks of the generators alone. -/
theorem Chip.Inv.of_same_generators {c d : Chip} (h : c.Inv) (htone : d.tone = c.tone) (hnoise : d.noise = c.noise)
    (henv : d.env = c.env) : d.Inv := by
  obtain ⟨hcnt, hnoiseCnt, henvCnt, hlfsr, hdir⟩ := h
  exact ⟨htone ▸ hcnt, hnoise ▸ hnoiseCnt, henv ▸ henvCnt, hnoise ▸ hlfsr, henv ▸ hdir⟩

theorem reset_inv (seed : NoiseSeed) : (Chip.reset seed).Inv where
  tone_cnt i := by fin_cases i <;> exact le_rfl
  noise_cnt := le_rfl
  env_cnt := le_rfl
  lfsr := seed.val_ne_zero
  dir := (by decide : Dir.down = Env.expectedDir ⟨0, 1, 0, 0, .down⟩)

theorem generatorTick_inv {c : Chip} (h : c.Inv) : c.generatorTick.Inv where
  tone_cnt i := by
    have hcnt := one_le_tone_clock_cnt (h.tone_cnt i)
    fin_cases i <;> exact hcnt
  noise_cnt := one_le_noise_clock_cnt h.noise_cnt
  env_cnt := one_le_env_clock_cnt h.env_cnt
  lfsr := noise_clock_lfsr_ne_zero h.noise_cnt h.lfsr
  dir := env_clock_dir_eq_expectedDir h.env_cnt h.dir

theorem advanceDivider_inv {c : Chip} (h : c.Inv) : c.advanceDivider.Inv := by
  obtain ⟨-, hadv⟩ | ⟨-, hadv⟩ := advanceDivider_cases c <;> rw [hadv]
  · exact h.of_same_generators rfl rfl rfl
  · exact generatorTick_inv (h.of_same_generators rfl rfl rfl)

theorem finishTick_inv {s : State} (h : s.chip.Inv) (m : Mode) : (s.finishTick m).chip.Inv :=
  advanceDivider_inv (h.of_same_generators rfl rfl rfl)

/-- A register write touches no counter and no shift register; the shape write restarts the envelope, and no other write
touches what its direction depends on (R141, R155). -/
theorem regWrite_inv {s : State} (h : s.chip.Inv) (a : Addr) (v : Byte) : (regWrite a v s).chip.Inv := by
  obtain ⟨hnoiseCnt, hlfsr, henvCnt⟩ := regWrite_noise_env a v s
  refine ⟨fun i => (regWrite_tone_cnt a v s i).symm ▸ h.tone_cnt i, hnoiseCnt ▸ h.noise_cnt, henvCnt ▸ h.env_cnt,
    hlfsr ▸ h.lfsr, ?_⟩
  by_cases ha : a = 13
  · subst ha
    exact restart_dir_eq_expectedDir { s.chip.env with shape := shapeField v }
  · obtain ⟨hshape, hstep, hdir⟩ := regWrite_env_of_ne ha v s
    rw [hdir, h.dir, Env.expectedDir, Env.expectedDir, hshape, hstep]

theorem exec_inv {i : Instr} {s t : State} (hinv : s.chip.Inv) (h : exec i s = .next t) : t.chip.Inv := by
  obtain ⟨-, ⟨r, -, rfl⟩ | ⟨r, -, rfl⟩ | ⟨-, m, rfl⟩ | ⟨-, -, rfl⟩ | ⟨-, -, rfl⟩ | ⟨-, -, rfl⟩⟩ := exec_next_cases h
  · exact hinv.of_same_generators rfl rfl rfl
  · exact regWrite_inv hinv _ _
  · exact finishTick_inv hinv m
  · exact finishTick_inv (s := readAction s) (hinv.of_same_generators rfl rfl rfl) _
  · exact finishTick_inv (regWrite_inv hinv _ _) _
  · exact finishTick_inv (s := latchAction s) (hinv.of_same_generators rfl rfl rfl) _

/-! ### The step -/

theorem tickWord_inv {w : Nat} {s t : State} (hinv : s.chip.Inv) (h : tickWord w s = .next t) : t.chip.Inv := by
  obtain ⟨-, i, -, hi⟩ | ⟨-, hfault⟩ := tickWord_cases w s
  · exact exec_inv hinv (hi ▸ h)
  · simp [hfault] at h

/-- A request outside the model answers no next state (R74, R318). -/
theorem hostMisuse_ne_next (m : HostMisuse) (s t : State) : hostMisuse m s ≠ .next t := by
  unfold hostMisuse
  cases s.faulted <;> simp

/-- What a request does is a tick, a change of the chip, a reply, or nothing it may do. A change of the chip is the reset or
leaves the generators alone (R310-R317, R370). -/
theorem perform_effect_cases (op : HostOp) :
    (∃ w ws, op = .update (w :: ws)) ∨ (∃ m, op = .misuse m) ∨
    (∃ g : NoiseSeed → Chip → Chip,
      ((∀ seed c, g seed c = Chip.reset seed) ∨
        ∀ seed c, (g seed c).tone = c.tone ∧ (g seed c).noise = c.noise ∧ (g seed c).env = c.env) ∧
      ∀ s, perform op s = s.running fun s => s.onChip (g s.seed)) ∨
    ∃ g : Chip → Reply, ∀ s, perform op s = s.running fun s => s.reply (g s.chip) := by
  cases op with
  | update ws =>
    cases ws with
    | nil => exact .inr (.inr (.inl ⟨fun _ c => c, .inr fun _ _ => ⟨rfl, rfl, rfl⟩, fun _ => rfl⟩))
    | cons w ws => exact .inl ⟨w, ws, rfl⟩
  | misuse m => exact .inr (.inl ⟨m, rfl⟩)
  | reset => exact .inr (.inr (.inl ⟨fun seed _ => Chip.reset seed, .inl fun _ _ => rfl, fun _ => rfl⟩))
  | writeDA v => exact .inr (.inr (.inl ⟨fun _ c => { c with da := v }, .inr fun _ _ => ⟨rfl, rfl, rfl⟩, fun _ => rfl⟩))
  | setToneOverride i b =>
    exact .inr (.inr (.inl ⟨fun _ c => c.mapChan i fun ch => { ch with toneOvr := b }, .inr fun _ _ => ⟨rfl, rfl, rfl⟩,
      fun _ => rfl⟩))
  | setNoiseOverride i b =>
    exact .inr (.inr (.inl ⟨fun _ c => c.mapChan i fun ch => { ch with noiseOvr := b }, .inr fun _ _ => ⟨rfl, rfl, rfl⟩,
      fun _ => rfl⟩))
  | readDA => exact .inr (.inr (.inr ⟨fun c => .byte c.da, fun _ => rfl⟩))
  | sample => exact .inr (.inr (.inr ⟨fun c => .sample c.sampleNum c.sampleFloat, fun _ => rfl⟩))
  | dbgToneBit i => exact .inr (.inr (.inr ⟨fun c => .toneBit i (c.toneValue i), fun _ => rfl⟩))
  | dbgNoiseBit => exact .inr (.inr (.inr ⟨fun c => .noiseBit c.noise.value, fun _ => rfl⟩))
  | dbgEnvLevel => exact .inr (.inr (.inr ⟨fun c => .envLevel c.env.level, fun _ => rfl⟩))
  | dbgVolume i => exact .inr (.inr (.inr ⟨fun c => .volume i (c.volume i), fun _ => rfl⟩))

theorem perform_inv {op : HostOp} {s t : State} (hinv : s.chip.Inv) (h : perform op s = .next t) : t.chip.Inv := by
  obtain ⟨w, ws, rfl⟩ | ⟨m, rfl⟩ | ⟨g, hg, hrun⟩ | ⟨g, hrun⟩ := perform_effect_cases op
  · exact tickWord_inv (s := { s with pending := requeue ws s.pending }) hinv h
  · exact absurd h (hostMisuse_ne_next m s t)
  · obtain ⟨-, rfl⟩ := running_eq_next.mp ((hrun s).symm.trans h)
    obtain hreset | hsame := hg
    · rw [onChip_chip, hreset]
      exact reset_inv s.seed
    · obtain ⟨htone, hnoise, henv⟩ := hsame s.seed s.chip
      exact hinv.of_same_generators htone hnoise henv
  · obtain ⟨-, rfl⟩ := running_eq_next.mp ((hrun s).symm.trans h)
    exact hinv

/-- Settles O35: a step keeps the chip or performs a request, and every request keeps the invariant. -/
theorem everyStepKeepsTheChipInvariant : Obligations.EveryStepKeepsTheChipInvariant := by
  intro s t hinv h
  obtain ⟨-, ⟨-, rfl⟩ | ⟨op, rest, -, hperform⟩⟩ := step_next_cases h
  · exact hinv
  · exact perform_inv (s := { s with pending := rest }) hinv hperform

/-- Settles O36: the reset chip's counters are 1, and nothing is pending. -/
theorem resetMeetsTheChipInvariant : Obligations.ResetMeetsTheChipInvariant :=
  ⟨reset_inv, reset_inv NoiseSeed.default, rfl⟩

end Sys2Proof.Machine
end

section
/-! The chip tick and the step that runs it (spec/40_bus_protocol.md R100-R111; spec/46_host_interface.md R312;
spec/60_exceptions.md R342, R343): what a tick performs, how a placed word runs, and when a step completes. -/

namespace Sys2Proof.Machine

/-! ### The chip tick -/

/-- Settles O26: every meaning is one running transition. -/
theorem instructionsCompleteUnlessFaulted : Obligations.InstructionsCompleteUnlessFaulted := by
  refine ⟨fun i s hf => ?_, fun i s k hf => ?_, fun s k hf => step_of_faulted hf⟩
  · obtain ⟨f, hrun⟩ := exec_running i
    exact ⟨f s, by rw [hrun, running_of_not_faulted hf]⟩
  · obtain ⟨f, hrun⟩ := exec_running i
    rw [hrun, running_of_faulted hf]

/-- Settles O7: a tick into Inactive is the end of a tick alone. -/
theorem inactiveTickOnlyRecordsModeAndDivides : Obligations.InactiveTickOnlyRecordsModeAndDivides := by
  intro s hf
  rw [exec_busInactive, running_of_not_faulted hf, finishTick_eq]

/-- Settles O9, by cases on whether the tick is an edge. -/
theorem writeTickActsOnTheEdgeOnly : Obligations.WriteTickActsOnTheEdgeOnly := by
  intro s hf
  rw [exec_busWrite, running_of_not_faulted hf]
  constructor
  · intro hm
    simp only [armed_iff, hm, if_true, writeAction, finishTick_eq]
  · intro hm
    simp only [armed_iff, hm, if_false, finishTick_eq]

/-- Settles O11, by the two cases of the divider. -/
theorem dividerClocksGeneratorsEverySixteenthTick : Obligations.DividerClocksGeneratorsEverySixteenthTick := by
  intro c
  obtain ⟨hne, hadv⟩ | ⟨heq, hadv⟩ := advanceDivider_cases c
  · exact ⟨fun _ => hadv, fun heq => absurd heq hne⟩
  · exact ⟨fun hne => absurd heq hne, fun _ => hadv⟩

/-- A Read edge loads what the read of the latched register loads, and ends the tick (R97, R104). -/
theorem exec_busRead_edge {s : State} (hf : s.faulted = none) (hm : s.chip.mode = .inactive) :
    ∃ u, exec (readInstr (RegName.ofAddr s.chip.addr)) s = .next u ∧ exec .busRead s = .next (u.finishTick .read) := by
  refine ⟨readAction s, ?_, ?_⟩
  · rw [exec_readInstr, running_of_not_faulted hf, readAction]
  · rw [exec_busRead, running_of_not_faulted hf]
    simp only [armed_iff, hm, if_true]

/-- A Write edge performs the write of the latched register, and ends the tick (R97, R105). -/
theorem exec_busWrite_edge {s : State} (hf : s.faulted = none) (hm : s.chip.mode = .inactive) :
    ∃ u, exec (writeInstr (RegName.ofAddr s.chip.addr)) s = .next u ∧ exec .busWrite s = .next (u.finishTick .write) := by
  refine ⟨writeAction s, ?_, ?_⟩
  · rw [exec_writeInstr, running_of_not_faulted hf, writeAction]
  · rw [exec_busWrite, running_of_not_faulted hf]
    simp only [armed_iff, hm, if_true]

/-- Settles O5: the word `{W, addr}` decodes to the operation that the edge performs. -/
theorem edgePerformsTheLatchedRegisterOperation : Obligations.EdgePerformsTheLatchedRegisterOperation := by
  intro s i hf hm
  constructor
  · intro hdecode
    obtain rfl := Except.ok.inj ((decode_regop_read _).symm.trans hdecode)
    exact exec_busRead_edge hf hm
  · intro hdecode
    obtain rfl := Except.ok.inj ((decode_regop_write _).symm.trans hdecode)
    exact exec_busWrite_edge hf hm

/-! ### The step that runs a tick -/

/-- A step on an `Update` runs its first line word, with the rest of the `Update` before the other requests (R312). -/
theorem step_update {s : State} {w : Nat} {ws : List Nat} {rest : List HostOp} (hf : s.faulted = none)
    (hp : s.pending = .update (w :: ws) :: rest) : step s = tickWord w { s with pending := requeue ws rest } :=
  step_cons hf hp

/-- A line word runs the instruction it decodes to (R100). -/
theorem tickWord_of_decode {w : Nat} {i : Instr} (h : decode ⟨.bus, w⟩ = .ok i) (s : State) : tickWord w s = exec i s := by
  have hbus : decodeBus w = .ok i := h
  rw [tickWord, hbus]

theorem requeue_eq_ite (ws : List Nat) (rest : List HostOp) :
    requeue ws rest = if ws = [] then rest else .update ws :: rest := by
  cases ws <;> rfl

/-- Settles O4: the step is a tick, and the tick runs the decoded instruction. -/
theorem stepRunsTheDecodedBusWord : Obligations.StepRunsTheDecodedBusWord := by
  intro s w ws rest i hf hp hdecode
  rw [step_update hf hp, tickWord_of_decode hdecode, requeue_eq_ite]

/-- A line word that is none of the four modes raises the fault (R342). -/
theorem tickWord_of_ge {w : Nat} (hw : 4 ≤ w) (s : State) : tickWord w s = .fault (.invariantViolation w) := by
  obtain ⟨hlt, -⟩ | ⟨-, hfault⟩ := tickWord_cases w s
  · omega
  · exact hfault

/-- Settles O32: the step is a tick, and the tick raises the fault. -/
theorem wordOutsideTheModesRaisesTheFault : Obligations.WordOutsideTheModesRaisesTheFault := by
  intro s w ws rest hf hw
  rw [step_update (s := { s with pending := .update (w :: ws) :: rest }) hf rfl, tickWord_of_ge hw]

/-- A faulted state stays where it is (R343). -/
theorem runSettled_of_faulted {s : State} {k : Fault} (h : s.faulted = some k) (n : Nat) : s.runSettled n = s := by
  induction n with
  | zero => rfl
  | succ n ih => rw [State.runSettled, step_of_faulted h, settle_refused, ih]

/-- Settles O33: the marker is set, and a marked state is absorbing. -/
theorem faultedStateIsAbsorbing : Obligations.FaultedStateIsAbsorbing := by
  intro s k h
  rw [h, settle_fault]
  exact ⟨rfl, fun n => runSettled_of_faulted rfl n⟩

/-! ### The placed word (log 2) -/

/-- The next step runs a placed BUS word as the next tick's lines. -/
theorem step_place_bus {s : State} {w : Nat} (hf : s.faulted = none) : step (s.withFetchWord 2 w) = tickWord w s :=
  step_update (s := s.withFetchWord 2 w) (rest := s.pending) hf rfl

/-- The next step runs a placed REGOP word as a Read or Write tick of the chip made ready for an edge at its address. -/
theorem step_place_regop {s : State} {w : Nat} (hf : s.faulted = none) (hw : w < 32) :
    step (s.withFetchWord 5 w) = tickWord (regOpLines w) (s.onChip (Chip.readyFor (BitVec.ofNat 4 w))) := by
  have hplace : s.withFetchWord 5 w =
      { s with
        chip := s.chip.readyFor (BitVec.ofNat 4 w)
        pending := .update [regOpLines w] :: s.pending } := by
    have hwf : CodeWord.wf ⟨.regop, w⟩ = true := (regop_wf_iff w).mpr hw
    simp [State.withFetchWord, tableFormat, placeWord, hwf]
  have hf' : (s.withFetchWord 5 w).faulted = none := by rw [hplace]; exact hf
  have hp : (s.withFetchWord 5 w).pending = .update (regOpLines w :: []) :: s.pending := by rw [hplace]
  rw [step_update hf' hp, hplace]
  rfl

/-- Bit 4 of a REGOP word is W (R83). -/
theorem testBit_four_iff {w : Nat} (hw : w < 32) : w.testBit 4 = true ↔ 16 ≤ w := by
  revert w
  decide

/-- Settles O6: a BUS word is the next tick's lines, and a REGOP word is the edge at its own address. -/
theorem placedWordRunsInTheNextStep : Obligations.PlacedWordRunsInTheNextStep := by
  intro s w i hf
  constructor
  · intro hdecode
    rw [step_place_bus hf, tickWord_of_decode hdecode]
  · intro hdecode
    have hw : w < 32 := (regop_wf_iff w).mp (wf_of_decode_ok hdecode)
    rw [step_place_regop hf hw]
    rw [decode_regop_lt hw] at hdecode
    simp only [← testBit_four_iff hw]
    cases hbit : w.testBit 4 with
    | false =>
      simp only [hbit, Bool.false_eq_true, if_false, Except.ok.injEq] at hdecode
      obtain ⟨u, hu, htick⟩ := exec_busRead_edge (s := s.onChip (Chip.readyFor (BitVec.ofNat 4 w))) hf rfl
      refine ⟨u, hdecode ▸ hu, ?_⟩
      rw [regOpLines, hbit]
      exact htick
    | true =>
      simp only [hbit, if_true, Except.ok.injEq] at hdecode
      obtain ⟨u, hu, htick⟩ := exec_busWrite_edge (s := s.onChip (Chip.readyFor (BitVec.ofNat 4 w))) hf rfl
      refine ⟨u, hdecode ▸ hu, ?_⟩
      rw [regOpLines, hbit]
      exact htick

end Sys2Proof.Machine
end

section
/-! The host's side (spec/46_host_interface.md; spec/70_reset_and_hazards.md R370, R371): each request's step, the ticks of an
`Update` in order, and what a run after `Reset` depends on. -/

namespace Sys2Proof.Machine

/-! ### One request a step -/

/-- A request that changes the chip alone. -/
theorem step_of_chip_change {s : State} {op : HostOp} {rest : List HostOp} {g : NoiseSeed → Chip → Chip}
    (hop : ∀ s, perform op s = s.running fun s => s.onChip (g s.seed)) (hf : s.faulted = none)
    (hp : s.pending = op :: rest) : step s = .next { s with pending := rest, chip := g s.seed s.chip } := by
  rw [step_cons hf hp, hop]
  exact running_eq_next.mpr ⟨hf, rfl⟩

/-- A request that returns a value appends it to what was returned, and changes nothing else. -/
theorem step_of_reply {s : State} {op : HostOp} {rest : List HostOp} {g : Chip → Reply}
    (hop : ∀ s, perform op s = s.running fun s => s.reply (g s.chip)) (hf : s.faulted = none)
    (hp : s.pending = op :: rest) : step s = .next { s with pending := rest, replies := s.replies ++ [g s.chip] } := by
  rw [step_cons hf hp, hop]
  exact running_eq_next.mpr ⟨hf, rfl⟩

/-- Settles O52: `WriteDA` is a change of `DA`. -/
theorem writeDaSetsTheDataBusAlone : Obligations.WriteDaSetsTheDataBusAlone :=
  fun _ v _ => step_of_chip_change (g := fun _ c => { c with da := v }) fun _ => rfl

/-- Settles O53: each of the five is a reply. -/
theorem readDaAndAccessorsChangeNothing : Obligations.ReadDaAndAccessorsChangeNothing := by
  intro s rest i hf
  exact ⟨step_of_reply (g := fun c => .byte c.da) (fun _ => rfl) hf rfl,
    step_of_reply (g := fun c => .toneBit i (c.toneValue i)) (fun _ => rfl) hf rfl,
    step_of_reply (g := fun c => .noiseBit c.noise.value) (fun _ => rfl) hf rfl,
    step_of_reply (g := fun c => .envLevel c.env.level) (fun _ => rfl) hf rfl,
    step_of_reply (g := fun c => .volume i (c.volume i)) (fun _ => rfl) hf rfl⟩

/-- A sample that is not zero has the float of its numerator (R285). -/
theorem sampleFloat_of_ne_zero {c : Chip} (h : c.sampleNum ≠ 0) : c.sampleFloat = Config.floatOf c.sampleNum :=
  if_neg fun hzero => h hzero.1

/-- A zero sample has one of the two zeros (R285). -/
theorem sampleFloat_of_zero {c : Chip} (h : c.sampleNum = 0) :
    c.sampleFloat = Config.floatOf 0 ∨ c.sampleFloat = Config.negativeZero := by
  unfold Chip.sampleFloat
  split
  · exact .inr rfl
  · exact .inl (by rw [h])

/-- Settles O54: `Sample` is a reply, and its float is the chip's. -/
theorem sampleReturnsTheMixAndChangesNothing : Obligations.SampleReturnsTheMixAndChangesNothing := by
  intro s rest hf
  exact ⟨s.chip.sampleFloat, sampleFloat_of_ne_zero, sampleFloat_of_zero,
    step_of_reply (g := fun c => .sample c.sampleNum c.sampleFloat) (fun _ => rfl) hf rfl⟩

/-- Settles O55: each setter is a change of one channel. -/
theorem overrideSettersWriteOneFlag : Obligations.OverrideSettersWriteOneFlag := by
  intro s rest c b hf
  exact ⟨step_of_chip_change (g := fun _ d => d.mapChan c fun ch => { ch with toneOvr := b }) (fun _ => rfl) hf rfl,
    step_of_chip_change (g := fun _ d => d.mapChan c fun ch => { ch with noiseOvr := b }) (fun _ => rfl) hf rfl⟩

/-- A chip that is not faulted refuses a request outside the model by name (R74, R318). -/
theorem hostMisuse_of_not_faulted {s : State} (hf : s.faulted = none) (m : HostMisuse) :
    hostMisuse m s = .refused (.hostMisuse m) := by
  rw [hostMisuse, hf]

/-- Settles O56, one lemma per clause. -/
theorem idleKeepsStateAndMisuseIsRefused : Obligations.IdleKeepsStateAndMisuseIsRefused := by
  intro s hf
  refine ⟨step_idle hf, fun m rest hp => ?_⟩
  rw [step_cons hf hp]
  exact hostMisuse_of_not_faulted hf m

/-- `Reset` puts the chip in the reset state of the machine's seed (R370). -/
theorem step_reset {s : State} {rest : List HostOp} (hf : s.faulted = none) (hp : s.pending = .reset :: rest) :
    step s = .next { s with pending := rest, chip := Chip.reset s.seed } :=
  step_of_chip_change (g := fun seed _ => Chip.reset seed) (fun _ => rfl) hf hp

/-- Settles O57: the fields are those of the reset chip. -/
theorem resetSetsEveryFieldOfTheChip : Obligations.ResetSetsEveryFieldOfTheChip := by
  refine ⟨fun s rest hf hp => step_reset hf hp, rfl, fun s hf hseed hp => ⟨_, step_reset hf hp, ?_⟩⟩
  change Chip.reset s.seed = Chip.reset State.reset.seed
  rw [hseed]

/-! ### Ticks that the interface can present -/

/-- A tick with a word of the interface completes, and it keeps the model's own fields and counts once (R110, R342). -/
theorem tickWord_next {w : Nat} {s : State} (hw : w < 4) (hf : s.faulted = none) :
    ∃ i t, tickWord w s = exec i s ∧ exec i s = .next t ∧
      t.faulted = none ∧ t.pending = s.pending ∧ t.chip.div = s.chip.div + 1 := by
  obtain ⟨-, i, hdecode, hi⟩ | ⟨hge, -⟩ := tickWord_cases w s
  · obtain ⟨t, ht⟩ := instructionsCompleteUnlessFaulted.1 i s hf
    obtain ⟨hfaulted, hpending, -⟩ := instructionsKeepOverridesAndHostSide i s t ht
    refine ⟨i, t, hi, ht, hfaulted.trans hf, hpending, ?_⟩
    have hbus : (encode i).format = .bus := congrArg CodeWord.format ((decode_eq_ok_iff _ _).mp hdecode).symm
    obtain ⟨-, ⟨r, rfl, -⟩ | ⟨r, rfl, -⟩ | ⟨-, m, rfl⟩ | ⟨-, -, rfl⟩ | ⟨-, -, rfl⟩ | ⟨-, -, rfl⟩⟩ := exec_next_cases ht
    · simp [encode_readInstr] at hbus
    · simp [encode_writeInstr] at hbus
    · exact finishTick_div m s
    · exact finishTick_div _ (readAction s)
    · simp [writeAction]
    · exact finishTick_div _ (latchAction s)
  · omega

/-- The words left of a well-formed `Update` are well formed. -/
theorem requeue_wf {ws : List Nat} {rest : List HostOp} (hws : ∀ w ∈ ws, w < 4) (hrest : rest.all HostOp.wf = true) :
    (requeue ws rest).all HostOp.wf = true := by
  cases ws with
  | nil => exact hrest
  | cons w ws =>
    have hupdate : HostOp.wf (.update (w :: ws)) = true :=
      List.all_eq_true.mpr fun x hx => decide_eq_true (hws x hx)
    rw [requeue, List.all_cons, hupdate, hrest]
    rfl

/-- A well-formed request completes, and leaves well-formed requests (R33, R318, R342). -/
theorem perform_of_wf {op : HostOp} {s : State} (hf : s.faulted = none) (hop : op.wf = true) (hs : s.requestsWf = true) :
    ∃ t, perform op s = .next t ∧ t.faulted = none ∧ t.requestsWf = true := by
  obtain ⟨w, ws, rfl⟩ | ⟨m, rfl⟩ | ⟨g, -, hrun⟩ | ⟨g, hrun⟩ := perform_effect_cases op
  · have hwords : ∀ x ∈ w :: ws, x < 4 := fun x hx => of_decide_eq_true (List.all_eq_true.mp hop x hx)
    obtain ⟨hw, hws⟩ := List.forall_mem_cons.mp hwords
    obtain ⟨i, t, hi, ht, hfaulted, hpending, -⟩ := tickWord_next (s := { s with pending := requeue ws s.pending }) hw hf
    refine ⟨t, hi.trans ht, hfaulted, ?_⟩
    rw [State.requestsWf, hpending]
    exact requeue_wf hws hs
  · exact absurd hop (by simp [HostOp.wf])
  · exact ⟨_, (hrun s).trans (running_of_not_faulted hf _), hf, hs⟩
  · exact ⟨_, (hrun s).trans (running_of_not_faulted hf _), hf, hs⟩

/-- Settles O34: with no request the state stays, and a well-formed request completes. -/
theorem wellFormedRequestsNeverFault : Obligations.WellFormedRequestsNeverFault := by
  intro s hf hs
  cases hp : s.pending with
  | nil => exact ⟨s, step_idle hf hp, hf, hs⟩
  | cons op rest =>
    rw [State.requestsWf, hp, List.all_cons, Bool.and_eq_true] at hs
    rw [step_cons hf hp]
    exact perform_of_wf (s := { s with pending := rest }) hf hs.1 hs.2

/-! ### What no instruction sees -/

/-- A change of the host's side of the state: it keeps the chip and the marker, and what an instruction does to the chip and
to the diagnostics is the same before it and after it. -/
structure HostSideChange (φ : State → State) : Prop where
  chip : ∀ s, (φ s).chip = s.chip
  faulted : ∀ s, (φ s).faulted = s.faulted
  onChip : ∀ s f, φ (s.onChip f) = (φ s).onChip f
  emit : ∀ s d, φ (s.emit d) = (φ s).emit d

/-- Other pending requests are such a change (log 1). -/
theorem hostSideChange_pending (ops : List HostOp) : HostSideChange fun s => { s with pending := ops } :=
  ⟨fun _ => rfl, fun _ => rfl, fun _ _ => rfl, fun _ _ => rfl⟩

section
variable {φ : State → State} (hφ : HostSideChange φ)
include hφ

theorem HostSideChange.running_next {s t : State} {f : State → State} (hf : ∀ s, φ (f s) = f (φ s))
    (h : s.running f = .next t) : (φ s).running f = .next (φ t) := by
  obtain ⟨hfaulted, rfl⟩ := running_eq_next.mp h
  exact running_eq_next.mpr ⟨(hφ.faulted s).trans hfaulted, hf s⟩

theorem HostSideChange.map_regWrite (a : Addr) (v : Byte) (s : State) : φ (regWrite a v s) = regWrite a v (φ s) := by
  unfold regWrite
  cases RegName.ofAddr a with
  | mixer =>
    simp only [writeMixer]
    split
    · rw [hφ.emit, hφ.onChip]
    · exact hφ.onChip s _
  | _ => exact hφ.onChip s _

theorem HostSideChange.map_finishTick (m : Mode) (s : State) : φ (s.finishTick m) = (φ s).finishTick m :=
  hφ.onChip s _

theorem HostSideChange.map_readAction (s : State) : φ (readAction s) = readAction (φ s) := by
  rw [readAction, readAction, hφ.chip]
  exact hφ.onChip s _

theorem HostSideChange.map_writeAction (s : State) : φ (writeAction s) = writeAction (φ s) := by
  rw [writeAction, writeAction, hφ.chip, hφ.map_regWrite]

theorem HostSideChange.map_edgeTick {act : State → State} (hact : ∀ s, φ (act s) = act (φ s)) (m : Mode) (s : State) :
    φ ((if s.armed then act s else s).finishTick m) = (if (φ s).armed then act (φ s) else φ s).finishTick m := by
  have harmed : (φ s).armed = s.armed := by rw [State.armed, hφ.chip, State.armed]
  rw [hφ.map_finishTick, harmed]
  split
  · rw [hact]
  · rfl

/-- No instruction sees such a change. -/
theorem HostSideChange.exec_next {i : Instr} {s t : State} (h : exec i s = .next t) : exec i (φ s) = .next (φ t) := by
  obtain rfl | rfl | rfl | rfl | ⟨r, rfl⟩ | ⟨r, rfl⟩ := instr_cases i
  · rw [exec_busInactive] at h ⊢
    exact hφ.running_next (hφ.map_finishTick _) h
  · rw [exec_busRead] at h ⊢
    exact hφ.running_next (hφ.map_edgeTick hφ.map_readAction _) h
  · rw [exec_busWrite] at h ⊢
    exact hφ.running_next (hφ.map_edgeTick hφ.map_writeAction _) h
  · rw [exec_busLatch] at h ⊢
    exact hφ.running_next (hφ.map_edgeTick (fun s => hφ.onChip s _) _) h
  · rw [exec_readInstr_addr] at h ⊢
    exact hφ.running_next (fun s => hφ.onChip s _) h
  · rw [exec_writeInstr_addr] at h ⊢
    exact hφ.running_next (fun s => by rw [hφ.map_regWrite, hφ.chip]) h

/-- No tick sees such a change. -/
theorem HostSideChange.tickWord_next {w : Nat} {s t : State} (h : tickWord w s = .next t) :
    tickWord w (φ s) = .next (φ t) := by
  obtain ⟨-, i, hdecode, -⟩ | ⟨-, hfault⟩ := tickWord_cases w s
  · rw [tickWord_of_decode hdecode] at h ⊢
    exact hφ.exec_next h
  · simp [hfault] at h

end

/-! ### Runs -/

/-- A run that completes takes a first step and completes from there. -/
theorem run_succ_next (M : Host.Core) {n : Nat} {s t : M.State} :
    M.run (n + 1) s = .next t ↔ ∃ u, M.step s = .next u ∧ M.run n u = .next t := by
  rw [Host.Core.run]
  cases M.step s <;> simp

/-- The ticks of an `Update` in order take the first one and then the rest (R312). -/
theorem runTicks_cons_next {w : Nat} {ws : List Nat} {s u : State} (h : tickWord w s = .next u) :
    runTicks (w :: ws) s = runTicks ws u := by
  rw [runTicks, h]

/-- The steps of a nonempty `Update` are its ticks in order. -/
theorem update_run_eq_ticks {w : Nat} {ws : List Nat} {s : State} (hf : s.faulted = none) (hws : ∀ x ∈ w :: ws, x < 4) :
    ∃ t, runTicks (w :: ws) s = .next t ∧
      Host.Core.run core (w :: ws).length { s with pending := .update (w :: ws) :: s.pending } = .next t ∧
      t.pending = s.pending ∧ t.chip.div.val = (s.chip.div.val + (w :: ws).length) % 16 := by
  induction ws generalizing w s with
  | nil =>
    obtain ⟨i, u, hi, hexec, -, hpending, hdiv⟩ := tickWord_next (hws w List.mem_cons_self) hf
    have htick : tickWord w s = .next u := hi.trans hexec
    have hstep : step { s with pending := .update [w] :: s.pending } = .next u :=
      (step_update (s := { s with pending := .update [w] :: s.pending }) hf rfl).trans htick
    refine ⟨u, runTicks_cons_next htick, (run_succ_next core).mpr ⟨u, hstep, rfl⟩, hpending, ?_⟩
    rw [hdiv, Fin.val_add]
    rfl
  | cons w' ws ih =>
    obtain ⟨hw, hrest⟩ := List.forall_mem_cons.mp hws
    obtain ⟨i, u, hi, hexec, hfaulted, hpending, hdiv⟩ := tickWord_next hw hf
    have htick : tickWord w s = .next u := hi.trans hexec
    have hrequeued := (hostSideChange_pending (.update (w' :: ws) :: s.pending)).tickWord_next htick
    have hstep : step { s with pending := .update (w :: w' :: ws) :: s.pending } =
        .next { u with pending := .update (w' :: ws) :: s.pending } :=
      (step_update (s := { s with pending := .update (w :: w' :: ws) :: s.pending }) hf rfl).trans hrequeued
    obtain ⟨t, hticks, hrun, htpending, htdiv⟩ := ih hfaulted hrest
    rw [hpending] at hrun htpending
    refine ⟨t, (runTicks_cons_next htick).trans hticks, (run_succ_next core).mpr ⟨_, hstep, hrun⟩, htpending, ?_⟩
    rw [htdiv, hdiv, Fin.val_add, List.length_cons (a := w)]
    change ((s.chip.div.val + 1) % 16 + (w' :: ws).length) % 16 = _
    omega

/-- Settles O37: a nonempty `Update` is its ticks in order, and an empty one is a request without effect. -/
theorem updateRunsItsTicksInOrder : Obligations.UpdateRunsItsTicksInOrder := by
  intro s ws rest hf hws
  constructor
  · intro hne
    obtain ⟨w, ws, rfl⟩ := List.exists_cons_of_ne_nil hne
    exact update_run_eq_ticks (s := { s with pending := rest }) hf hws
  · exact step_of_chip_change (g := fun _ c => c) (fun _ => rfl) hf rfl

/-! ### Reset -/

/-- The state with earlier diagnostics and earlier returned values before its own. -/
def State.after (diag : List Diag) (replies : List Reply) (s : State) : State :=
  { s with diag := diag ++ s.diag, replies := replies ++ s.replies }

section
variable (diag : List Diag) (replies : List Reply)

theorem hostSideChange_after : HostSideChange (State.after diag replies) where
  chip _ := rfl
  faulted _ := rfl
  onChip _ _ := rfl
  emit s d := by simp [State.after, State.emit]

theorem after_reply (s : State) (r : Reply) : (s.reply r).after diag replies = (s.after diag replies).reply r := by
  simp [State.after, State.reply]

/-- No request sees what was output before it (log 10). -/
theorem perform_after {op : HostOp} {s t : State} (h : perform op s = .next t) :
    perform op (s.after diag replies) = .next (t.after diag replies) := by
  have hafter := hostSideChange_after diag replies
  obtain ⟨w, ws, rfl⟩ | ⟨m, rfl⟩ | ⟨g, -, hrun⟩ | ⟨g, hrun⟩ := perform_effect_cases op
  · exact hafter.tickWord_next (s := { s with pending := requeue ws s.pending }) h
  · exact absurd h (hostMisuse_ne_next m s t)
  · rw [hrun] at h ⊢
    exact hafter.running_next (fun s => hafter.onChip s _) h
  · rw [hrun] at h ⊢
    exact hafter.running_next (fun s => after_reply diag replies s _) h

theorem step_after {s t : State} (h : step s = .next t) :
    step (s.after diag replies) = .next (t.after diag replies) := by
  obtain ⟨hf, ⟨hp, rfl⟩ | ⟨op, rest, hp, hperform⟩⟩ := step_next_cases h
  · exact step_idle hf hp
  · rw [step_cons (s := s.after diag replies) hf hp]
    exact perform_after diag replies hperform

theorem run_after {n : Nat} {s t : State} (h : Host.Core.run core n s = .next t) :
    Host.Core.run core n (s.after diag replies) = .next (t.after diag replies) := by
  induction n generalizing s with
  | zero =>
    cases h
    rfl
  | succ n ih =>
    obtain ⟨u, hstep, hrun⟩ := (run_succ_next core).mp h
    exact (run_succ_next core).mpr ⟨u.after diag replies, step_after diag replies hstep, ih hrun⟩

end

/-- Settles O58: `Reset` leads to the constructed machine's state after what was output before, and no step sees that. -/
theorem resetForgetsEverythingBefore : Obligations.ResetForgetsEverythingBefore := by
  intro s ops n t hf h
  have hstep : step { s with pending := .reset :: ops } =
      .next (({ State.construct s.seed with pending := ops } : State).after s.diag s.replies) := by
    rw [step_reset (s := { s with pending := .reset :: ops }) hf rfl]
    simp [State.after, State.construct, hf]
  exact (run_succ_next core).mpr ⟨_, hstep, run_after s.diag s.replies h⟩

end Sys2Proof.Machine
end

section
/-! One clock of each generator, whatever its counter holds (spec/42_tone.md R201, R204; spec/43_noise.md R221;
spec/44_envelope.md R244; log 16): a counter at 1 expires, and any other counts down. -/

namespace Sys2Proof.Machine

/-- A counter counts down to 0 from 1 alone. -/
theorem countdown_ne_zero {w : Nat} {c : BitVec w} (h : c ≠ 1) : c - 1 ≠ 0 := fun hzero => h (sub_eq_zero.mp hzero)

theorem tone_clock_of_one {t : Tone} (h : t.cnt = 1) : t.clock = { t with cnt := reload t.period, out := !t.out } :=
  if_pos (sub_eq_zero.mpr h)

theorem tone_clock_of_ne_one {t : Tone} (h : t.cnt ≠ 1) : t.clock = { t with cnt := t.cnt - 1 } :=
  if_neg (countdown_ne_zero h)

theorem noise_clock_of_one {g : Noise} (h : g.cnt = 1) :
    g.clock = { g with cnt := reload g.period, lfsr := lfsrNext g.lfsr } :=
  if_pos (sub_eq_zero.mpr h)

theorem noise_clock_of_ne_one {g : Noise} (h : g.cnt ≠ 1) : g.clock = { g with cnt := g.cnt - 1 } :=
  if_neg (countdown_ne_zero h)

theorem env_clock_of_one {e : Env} (h : e.cnt = 1) : e.clock = { e.advance with cnt := reload e.period } := by
  rw [← advance_setCnt]
  exact if_pos (sub_eq_zero.mpr h)

theorem env_clock_of_ne_one {e : Env} (h : e.cnt ≠ 1) : e.clock = { e with cnt := e.cnt - 1 } :=
  if_neg (countdown_ne_zero h)

/-- No clock touches the period. -/
@[simp] theorem tone_clock_period (t : Tone) : t.clock.period = t.period := by
  by_cases h : t.cnt = 1
  · rw [tone_clock_of_one h]
  · rw [tone_clock_of_ne_one h]

@[simp] theorem noise_clock_period (g : Noise) : g.clock.period = g.period := by
  by_cases h : g.cnt = 1
  · rw [noise_clock_of_one h]
  · rw [noise_clock_of_ne_one h]

@[simp] theorem env_clock_period (e : Env) : e.clock.period = e.period := by
  by_cases h : e.cnt = 1
  · rw [env_clock_of_one h, advance_period]
  · rw [env_clock_of_ne_one h]

/-- A counter at 1 is reloaded with `max(period, 1)`. -/
theorem tone_clock_cnt_of_one {t : Tone} (h : t.cnt = 1) : t.clock.cnt.toNat = max t.period.toNat 1 := by
  rw [tone_clock_of_one h, reload_toNat (by decide)]

theorem noise_clock_cnt_of_one {g : Noise} (h : g.cnt = 1) : g.clock.cnt.toNat = max g.period.toNat 1 := by
  rw [noise_clock_of_one h, reload_toNat (by decide)]

theorem env_clock_cnt_of_one {e : Env} (h : e.cnt = 1) : e.clock.cnt.toNat = max e.period.toNat 1 := by
  rw [env_clock_of_one h, reload_toNat (by decide)]

/-! ### One clock as numbers -/

/-- What a shift puts into bit 16 is the weight of the feedback bit (R221). -/
theorem lfsrNext_toNat_eq_ite (x : BitVec 17) :
    (lfsrNext x).toNat = (if x.toNat.testBit 0 = x.toNat.testBit 3 then 0 else 65536) + x.toNat / 2 := by
  rw [lfsrNext_toNat, BitVec.getLsbD, BitVec.getLsbD]
  cases x.toNat.testBit 0 <;> cases x.toNat.testBit 3 <;> rfl

/-- Settles O41, by the two cases of a noise clock. -/
theorem noiseClockCountsAndShiftsOnExpiry : Obligations.NoiseClockCountsAndShiftsOnExpiry := by
  intro g h
  obtain ⟨hne, hclock⟩ | ⟨heq, hclock⟩ := noise_clock_cases g h
  · have hcount : (g.cnt - 1).toNat = g.cnt.toNat - 1 := countdown_toNat (by decide) g.cnt h
    rw [hclock]
    exact ⟨fun _ => ⟨hcount, rfl, rfl⟩, fun heq => absurd heq hne⟩
  · have hreload : (reload g.period).toNat = max g.period.toNat 1 := reload_toNat (by decide) g.period
    rw [hclock]
    exact ⟨fun hne => absurd heq hne, fun _ => ⟨hreload, rfl, lfsrNext_toNat_eq_ite g.lfsr⟩⟩

/-- Settles O44, by the two cases of an envelope clock. -/
theorem envClockCountsAndStepsOnExpiry : Obligations.EnvClockCountsAndStepsOnExpiry := by
  intro e h
  obtain ⟨hne, hclock⟩ | ⟨heq, hclock⟩ := env_clock_cases e h
  · have hcount : (e.cnt - 1).toNat = e.cnt.toNat - 1 := countdown_toNat (by decide) e.cnt h
    rw [hclock]
    exact ⟨fun _ => ⟨hcount, rfl, rfl, rfl, rfl⟩, fun heq => absurd heq hne⟩
  · have hreload : (reload e.period).toNat = max e.period.toNat 1 := reload_toNat (by decide) e.period
    rw [hclock]
    exact ⟨fun hne => absurd heq hne, fun _ => ⟨hreload, rfl, rfl, advance_shape e, advance_period e⟩⟩

/-! ### A period of 0 -/

/-- A map that commutes with `f` on an invariant of `f` commutes with its iterates there. -/
theorem iterate_comm_of_invariant {α : Type} {f φ : α → α} {I : α → Prop} (hI : ∀ a, I a → I (f a))
    (hcomm : ∀ a, I a → f (φ a) = φ (f a)) {a : α} (ha : I a) (n : Nat) : f^[n] (φ a) = φ (f^[n] a) := by
  induction n generalizing a with
  | zero => rfl
  | succ n ih => rw [Function.iterate_succ_apply, Function.iterate_succ_apply, hcomm a ha, ih (hI a ha)]

/-- A clock sees the period through its reload value alone. -/
theorem tone_clock_setPeriod {p : BitVec 12} {t : Tone} (h : reload t.period = reload p) :
    Tone.clock { t with period := p } = { t.clock with period := p } := by
  by_cases hcnt : t.cnt = 1
  · rw [tone_clock_of_one hcnt, tone_clock_of_one (t := { t with period := p }) hcnt, h]
  · rw [tone_clock_of_ne_one hcnt, tone_clock_of_ne_one (t := { t with period := p }) hcnt]

theorem noise_clock_setPeriod {p : BitVec 5} {g : Noise} (h : reload g.period = reload p) :
    Noise.clock { g with period := p } = { g.clock with period := p } := by
  by_cases hcnt : g.cnt = 1
  · rw [noise_clock_of_one hcnt, noise_clock_of_one (g := { g with period := p }) hcnt, h]
  · rw [noise_clock_of_ne_one hcnt, noise_clock_of_ne_one (g := { g with period := p }) hcnt]

theorem env_clock_setPeriod {p : BitVec 16} {e : Env} (h : reload e.period = reload p) :
    Env.clock { e with period := p } = { e.clock with period := p } := by
  by_cases hcnt : e.cnt = 1
  · rw [env_clock_of_one hcnt, env_clock_of_one (e := { e with period := p }) hcnt, h, advance_setPeriod]
  · rw [env_clock_of_ne_one hcnt, env_clock_of_ne_one (e := { e with period := p }) hcnt]

/-- Settles O40: 0 and 1 have the same reload value, so the iterates differ in the period alone. -/
theorem zeroPeriodBehavesAsOne : Obligations.ZeroPeriodBehavesAsOne := by
  refine ⟨fun t n => ?_, fun g n => ?_, fun e n => ?_⟩
  · have h := iterate_comm_of_invariant (φ := fun t => { t with period := 0 }) (I := fun t : Tone => t.period = 1)
      (fun t ht => (tone_clock_period t).trans ht) (fun t ht => tone_clock_setPeriod (by rw [ht]; rfl))
      (a := { t with period := 1 }) rfl n
    exact ⟨(congrArg Tone.cnt h :), (congrArg Tone.out h :)⟩
  · have h := iterate_comm_of_invariant (φ := fun g => { g with period := 0 }) (I := fun g : Noise => g.period = 1)
      (fun g hg => (noise_clock_period g).trans hg) (fun g hg => noise_clock_setPeriod (by rw [hg]; rfl))
      (a := { g with period := 1 }) rfl n
    exact ⟨(congrArg Noise.cnt h :), (congrArg Noise.lfsr h :)⟩
  · have h := iterate_comm_of_invariant (φ := fun e => { e with period := 0 }) (I := fun e : Env => e.period = 1)
      (fun e he => (env_clock_period e).trans he) (fun e he => env_clock_setPeriod (by rw [he]; rfl))
      (a := { e with period := 1 }) rfl n
    exact ⟨(congrArg Env.cnt h :), (congrArg Env.step h :), (congrArg Env.dir h :)⟩

end Sys2Proof.Machine
end

section
/-! The register operations as whole next states (spec/41_register_access.md R142-R157, R161-R175), and the generator tick that
sees a write of the same tick (spec/70_reset_and_hazards.md R387). -/

namespace Sys2Proof.Machine

/-! ### Fields as numbers -/

/-- A word is the number it stands for. -/
theorem eq_ofNat_of_toNat_eq {w n : Nat} {x : BitVec w} (h : x.toNat = n) : x = BitVec.ofNat w n := by
  rw [← h, BitVec.ofNat_toNat, BitVec.setWidth_eq]

theorem toneHighByte_eq_ofNat (p : BitVec 12) : toneHighByte p = BitVec.ofNat 8 (p.toNat / 256) :=
  eq_ofNat_of_toNat_eq (toneHighByte_toNat p)

theorem withToneLow_eq_ofNat (p : BitVec 12) (v : Byte) :
    withToneLow p v = BitVec.ofNat 12 (p.toNat / 256 * 256 + v.toNat) :=
  eq_ofNat_of_toNat_eq (withToneLow_toNat p v)

theorem withToneHigh_eq_ofNat (p : BitVec 12) (v : Byte) :
    withToneHigh p v = BitVec.ofNat 12 (v.toNat % 16 * 256 + p.toNat % 256) :=
  eq_ofNat_of_toNat_eq (withToneHigh_toNat p v)

theorem withEnvLow_eq_ofNat (p : BitVec 16) (v : Byte) :
    withEnvLow p v = BitVec.ofNat 16 (p.toNat / 256 * 256 + v.toNat) :=
  eq_ofNat_of_toNat_eq (withEnvLow_toNat p v)

theorem withEnvHigh_eq_ofNat (p : BitVec 16) (v : Byte) :
    withEnvHigh p v = BitVec.ofNat 16 (v.toNat * 256 + p.toNat % 256) :=
  eq_ofNat_of_toNat_eq (withEnvHigh_toNat p v)

theorem noiseField_eq_ofNat (v : Byte) : noiseField v = BitVec.ofNat 5 (v.toNat % 32) :=
  eq_ofNat_of_toNat_eq (noiseField_toNat v)

theorem shapeField_eq_ofNat (v : Byte) : shapeField v = BitVec.ofNat 4 (v.toNat % 16) :=
  eq_ofNat_of_toNat_eq (shapeField_toNat v)

theorem volumeField_eq_ofNat (v : Byte) : volumeField v = BitVec.ofNat 4 (v.toNat % 16) :=
  eq_ofNat_of_toNat_eq (volumeField_toNat v)

/-- The attack bit of a written shape is bit 2 of the byte (R93, D9). -/
theorem attacks_shapeField (v : Byte) : attacks (shapeField v) = v.toNat.testBit 2 := by
  rw [attacks, shapeField, BitVec.getLsbD_extractLsb']
  rfl

/-! ### Reads -/

theorem regRead_toneAHi (c : Chip) : regRead RegName.toneAHi.addr c = toneHighByte c.tone[0].period := rfl
theorem regRead_toneBHi (c : Chip) : regRead RegName.toneBHi.addr c = toneHighByte c.tone[1].period := rfl
theorem regRead_toneCHi (c : Chip) : regRead RegName.toneCHi.addr c = toneHighByte c.tone[2].period := rfl

/-- Settles O14: the three reads are the reads of registers 1, 3 and 5, whose values are high nibbles of a period. -/
theorem toneHighReadsReturnPeriodHighNibble : Obligations.ToneHighReadsReturnPeriodHighNibble := by
  intro s hf
  simp only [← toneHighByte_eq_ofNat, ← regRead_toneAHi, ← regRead_toneBHi, ← regRead_toneCHi]
  exact ⟨exec_readInstr_of_not_faulted hf .toneAHi, exec_readInstr_of_not_faulted hf .toneBHi,
    exec_readInstr_of_not_faulted hf .toneCHi⟩

/-- Settles O15: the two reads are the reads of registers 6 and 13, whose values widen a field. -/
theorem narrowFieldReadsAreZeroExtended : Obligations.NarrowFieldReadsAreZeroExtended := by
  intro s hf
  simp only [BitVec.ofNat_toNat]
  exact ⟨exec_readInstr_of_not_faulted hf .noisePer, exec_readInstr_of_not_faulted hf .envShape⟩

/-- Settles O17: the six reads are reads of registers whose value is the backing byte. -/
theorem backingReadsReturnTheStoredByte : Obligations.BackingReadsReturnTheStoredByte := fun _ hf =>
  ⟨exec_readInstr_of_not_faulted hf .mixer, exec_readInstr_of_not_faulted hf .ampA, exec_readInstr_of_not_faulted hf .ampB,
    exec_readInstr_of_not_faulted hf .ampC, exec_readInstr_of_not_faulted hf .ioA, exec_readInstr_of_not_faulted hf .ioB⟩

/-! ### Writes -/

/-- A write instruction on a chip that is not faulted is `RegWrite` of its register with `DA` (R141). -/
theorem exec_writeInstr_of_not_faulted {s : State} (hf : s.faulted = none) (r : RegName) :
    exec (writeInstr r) s = .next (regWrite r.addr s.chip.da s) := by
  rw [exec_writeInstr_addr, running_of_not_faulted hf]

/-- Settles O18: the three writes put the byte below the period's high nibble. -/
theorem toneLowWritesReplacePeriodLowByte : Obligations.ToneLowWritesReplacePeriodLowByte := by
  intro s hf
  simp only [← withToneLow_eq_ofNat]
  exact ⟨exec_writeInstr_of_not_faulted hf .toneALo, exec_writeInstr_of_not_faulted hf .toneBLo,
    exec_writeInstr_of_not_faulted hf .toneCLo⟩

/-- Settles O19: the three writes put the nibble above the period's low byte. -/
theorem toneHighWritesReplacePeriodHighNibble : Obligations.ToneHighWritesReplacePeriodHighNibble := by
  intro s hf
  simp only [← withToneHigh_eq_ofNat]
  exact ⟨exec_writeInstr_of_not_faulted hf .toneAHi, exec_writeInstr_of_not_faulted hf .toneBHi,
    exec_writeInstr_of_not_faulted hf .toneCHi⟩

/-- Settles O20: the write takes the five bits of the noise field. -/
theorem noisePeriodWriteSetsFiveBits : Obligations.NoisePeriodWriteSetsFiveBits := by
  intro s hf
  rw [← noiseField_eq_ofNat]
  exact exec_writeInstr_of_not_faulted hf .noisePer

/-- Changes of all three channels, one after another, are one change of the vector of channels. -/
theorem mapChan_all (c : Chip) (f g h : Chan → Chan) :
    ((c.mapChan 0 f).mapChan 1 g).mapChan 2 h = { c with chan := #v[f c.chan[0], g c.chan[1], h c.chan[2]] } := by
  have hget : ∀ i : Channel, (((c.mapChan 0 f).mapChan 1 g).mapChan 2 h).chan[i] =
      (#v[f c.chan[0], g c.chan[1], h c.chan[2]] : Vector Chan 3)[i] := by
    intro i
    simp only [mapChan_getElem]
    fin_cases i <;> rfl
  have hchan : (((c.mapChan 0 f).mapChan 1 g).mapChan 2 h).chan = #v[f c.chan[0], g c.chan[1], h c.chan[2]] :=
    Vector.ext fun i hi => hget ⟨i, hi⟩
  rw [← hchan]
  rfl

/-- Settles O21: the mixer write sets every channel, and asks for I/O control exactly from 64 on. -/
theorem mixerWriteSetsEnablesAndDiagnoses : Obligations.MixerWriteSetsEnablesAndDiagnoses := by
  intro s hf
  refine (exec_writeInstr_of_not_faulted hf .mixer).trans ?_
  rw [regWrite_mixer, mapChan_all]
  simp only [asksIoControl_iff]
  rfl

/-- Settles O22: the three writes set one amplitude control from the byte's fields. -/
theorem amplitudeWritesSetModeAndVolume : Obligations.AmplitudeWritesSetModeAndVolume := by
  intro s hf
  simp only [← volumeField_eq_ofNat]
  exact ⟨exec_writeInstr_of_not_faulted hf .ampA, exec_writeInstr_of_not_faulted hf .ampB,
    exec_writeInstr_of_not_faulted hf .ampC⟩

/-- Settles O23: the two writes replace one byte of the period. -/
theorem envPeriodWritesReplaceOneByte : Obligations.EnvPeriodWritesReplaceOneByte := by
  intro s hf
  rw [← withEnvLow_eq_ofNat, ← withEnvHigh_eq_ofNat]
  exact ⟨exec_writeInstr_of_not_faulted hf .envLo, exec_writeInstr_of_not_faulted hf .envHi⟩

/-- Settles O24: the write restarts the envelope with the shape of the byte. -/
theorem envShapeWriteRestartsTheEnvelope : Obligations.EnvShapeWriteRestartsTheEnvelope := by
  intro s hf
  rw [← shapeField_eq_ofNat, ← attacks_shapeField]
  exact exec_writeInstr_of_not_faulted hf .envShape

/-- Settles O25: the two writes store their byte. -/
theorem ioPortWritesStoreTheByte : Obligations.IoPortWritesStoreTheByte := fun _ hf =>
  ⟨exec_writeInstr_of_not_faulted hf .ioA, exec_writeInstr_of_not_faulted hf .ioB⟩

/-! ### A write on the tick that clocks the generators -/

theorem generatorTick_tone_getElem (c : Chip) (i : Channel) : c.generatorTick.tone[i] = c.tone[i].clock := by
  fin_cases i <;> rfl

/-- Where the divider is at 15, a Write edge is the write and then a generator tick (R100, R110, D2). -/
theorem exec_busWrite_due {s : State} (hf : s.faulted = none) (hm : s.chip.mode = .inactive) (hdiv : s.chip.div = 15) :
    ∃ t, exec .busWrite s = .next t ∧ t.chip =
      ({ (regWrite s.chip.addr s.chip.da s).chip with mode := .write, div := 0 } : Chip).generatorTick := by
  obtain ⟨-, -, -, hkeep, -⟩ := regWrite_bus s.chip.addr s.chip.da s
  refine ⟨_, (writeTickActsOnTheEdgeOnly s hf).1 hm, ?_⟩
  obtain ⟨hne, -⟩ | ⟨-, hadv⟩ := advanceDivider_cases { (regWrite s.chip.addr s.chip.da s).chip with mode := .write }
  · rw [hkeep, hdiv] at hne
    exact absurd rfl hne
  · exact hadv

/-- The register at an even address below 6 is the low byte of a tone period. -/
theorem regWrite_toneLow_period {a : Addr} {i : Channel} (ha : a.toNat = 2 * i.val) (v : Byte) (s : State) :
    (regWrite a v s).chip.tone[i].period = withToneLow s.chip.tone[i].period v := by
  obtain rfl := eq_ofNat_of_toNat_eq ha
  fin_cases i
  · exact congrArg Tone.period (mapTone_getElem (s.chip.setReg 0 v) 0 0 _)
  · exact congrArg Tone.period (mapTone_getElem (s.chip.setReg 2 v) 1 1 _)
  · exact congrArg Tone.period (mapTone_getElem (s.chip.setReg 4 v) 2 2 _)

/-- The register at an odd address below 6 is the high nibble of a tone period. -/
theorem regWrite_toneHigh_period {a : Addr} {i : Channel} (ha : a.toNat = 2 * i.val + 1) (v : Byte) (s : State) :
    (regWrite a v s).chip.tone[i].period = withToneHigh s.chip.tone[i].period v := by
  obtain rfl := eq_ofNat_of_toNat_eq ha
  fin_cases i
  · exact congrArg Tone.period (mapTone_getElem (s.chip.setReg 1 v) 0 0 _)
  · exact congrArg Tone.period (mapTone_getElem (s.chip.setReg 3 v) 1 1 _)
  · exact congrArg Tone.period (mapTone_getElem (s.chip.setReg 5 v) 2 2 _)

theorem regWrite_noisePer_period (v : Byte) (s : State) : (regWrite 6 v s).chip.noise.period = noiseField v := rfl

theorem regWrite_envLo_period (v : Byte) (s : State) :
    (regWrite 11 v s).chip.env.period = withEnvLow s.chip.env.period v := rfl

theorem regWrite_envHi_period (v : Byte) (s : State) :
    (regWrite 12 v s).chip.env.period = withEnvHigh s.chip.env.period v := rfl

/-- No shape holds at step 0 (R243). -/
theorem holding_restart (e : Env) : e.restart.holding = false := by
  have hfinal : ∀ shape : BitVec 4, (finalStep shape == some 0) = false := by decide
  exact hfinal e.shape

/-- The first step after a restart stays within the ramp. -/
theorem advance_restart (e : Env) : e.restart.advance = { e.restart with step := 1 } := by
  obtain ⟨hhold, -⟩ | ⟨-, hturn, -⟩ | ⟨-, -, hadv⟩ := env_advance_cases e.restart
  · simp [holding_restart] at hhold
  · simp at hturn
  · exact hadv

/-- A clock right after a restart takes the first step exactly where the counter expires. -/
theorem clock_restart (e : Env) :
    e.restart.clock.shape = e.shape ∧ e.restart.clock.step = (if e.cnt = 1 then 1 else 0) ∧
    e.restart.clock.dir = e.restart.dir := by
  by_cases h : e.cnt = 1
  · rw [env_clock_of_one (e := e.restart) h, advance_restart, if_pos h]
    exact ⟨rfl, rfl, rfl⟩
  · rw [env_clock_of_ne_one (e := e.restart) h, if_neg h]
    exact ⟨rfl, rfl, rfl⟩

/-- Settles O12: the generator tick clocks the generators as the write leaves them, so a counter at 1 reloads with the period
just written, and the envelope clocks from the restart. -/
theorem writeIsSeenByTheSameTicksGeneratorTick : Obligations.WriteIsSeenByTheSameTicksGeneratorTick := by
  intro s hf hm hdiv
  obtain ⟨t, hexec, hchip⟩ := exec_busWrite_due hf hm hdiv
  obtain ⟨hnoiseCnt, -, henvCnt⟩ := regWrite_noise_env s.chip.addr s.chip.da s
  have htone : ∀ c : Channel, t.chip.tone[c] = (regWrite s.chip.addr s.chip.da s).chip.tone[c].clock := fun c => by
    rw [hchip, generatorTick_tone_getElem]
  have hnoise : t.chip.noise = (regWrite s.chip.addr s.chip.da s).chip.noise.clock := by rw [hchip]; rfl
  have henv : t.chip.env = (regWrite s.chip.addr s.chip.da s).chip.env.clock := by rw [hchip]; rfl
  refine ⟨t, hexec, by rw [hchip]; rfl, fun c hcnt => ?_, fun ha hcnt => ?_, fun ha hcnt => ?_, fun ha hcnt => ?_,
    fun ha => ?_⟩
  · rw [htone, tone_clock_cnt_of_one ((regWrite_tone_cnt _ _ s c).trans hcnt)]
    constructor
    · intro ha
      rw [regWrite_toneLow_period ha, withToneLow_toNat]
    · intro ha
      rw [regWrite_toneHigh_period ha, withToneHigh_toNat]
  · rw [hnoise, noise_clock_cnt_of_one (hnoiseCnt.trans hcnt), ha, regWrite_noisePer_period, noiseField_toNat]
  · rw [henv, env_clock_cnt_of_one (henvCnt.trans hcnt), ha, regWrite_envLo_period, withEnvLow_toNat]
  · rw [henv, env_clock_cnt_of_one (henvCnt.trans hcnt), ha, regWrite_envHi_period, withEnvHigh_toNat]
  · obtain ⟨hshape, hstep, hdir⟩ := clock_restart { s.chip.env with shape := shapeField s.chip.da }
    rw [henv, ha, regWrite_envShape_env]
    exact ⟨hshape ▸ shapeField_toNat s.chip.da, hstep, hdir.trans (by rw [← attacks_shapeField]; rfl)⟩

end Sys2Proof.Machine
end

section
/-! Generators with a constant period (spec/42_tone.md R203; spec/43_noise.md R226; spec/44_envelope.md R247, R248): what any
number of clocks does. -/

namespace Sys2Proof.Machine

/-! ### A down-counter with a constant reload value -/

/-- Where a counter that has gone `m` clocks since a reload with `p` stands one clock later. -/
theorem phase_succ {p : Nat} (hp : 1 ≤ p) (m : Nat) :
    (p - m % p = 1 ∧ (m + 1) % p = 0 ∧ (m + 1) / p = m / p + 1) ∨
    (p - m % p ≠ 1 ∧ (m + 1) % p = m % p + 1 ∧ (m + 1) / p = m / p) := by
  have hlt : m % p < p := Nat.mod_lt m hp
  have hdiv : p * (m / p) + m % p = m := Nat.div_add_mod m p
  by_cases hlast : m % p + 1 = p
  · have hsucc : m + 1 = p * (m / p + 1) := by rw [Nat.mul_succ]; omega
    exact .inl ⟨by omega, by rw [hsucc, Nat.mul_mod_right], by rw [hsucc, Nat.mul_div_cancel_left _ hp]⟩
  · have hsucc : m + 1 = p * (m / p) + (m % p + 1) := by omega
    refine .inr ⟨by omega, ?_, ?_⟩
    · rw [hsucc, Nat.mul_add_mod, Nat.mod_eq_of_lt (by omega)]
    · rw [hsucc, Nat.mul_add_div hp, Nat.div_eq_of_lt (show m % p + 1 < p by omega), Nat.add_zero]

/-- A generator with a down-counter that is reloaded with `p`, and an output that takes one `tick` each time it expires. -/
structure CountsDown {G O : Type} (clock : G → G) (cnt : G → Nat) (out : G → O) (tick : O → O) (p : Nat)
    (I : G → Prop) : Prop where
  keeps : ∀ g, I g → I (clock g)
  counts : ∀ g, I g → 1 ≤ cnt g → cnt g ≠ 1 → cnt (clock g) = cnt g - 1 ∧ out (clock g) = out g
  expires : ∀ g, I g → cnt g = 1 → cnt (clock g) = p ∧ out (clock g) = tick (out g)

section
variable {G O : Type} {clock : G → G} {cnt : G → Nat} {out : G → O} {tick : O → O} {p : Nat} {I : G → Prop}

/-- After `k` clocks such a generator has taken a tick for every `p` clocks since its last reload. -/
theorem CountsDown.iterate (h : CountsDown clock cnt out tick p I) {g : G} (hI : I g) (hpos : 1 ≤ cnt g)
    (hle : cnt g ≤ p) (k : Nat) :
    I (clock^[k] g) ∧ cnt (clock^[k] g) = p - (k + (p - cnt g)) % p ∧
      out (clock^[k] g) = tick^[(k + (p - cnt g)) / p] (out g) := by
  have hp : 1 ≤ p := hpos.trans hle
  induction k with
  | zero =>
    rw [Nat.zero_add, Nat.mod_eq_of_lt (by omega), Nat.div_eq_of_lt (by omega)]
    exact ⟨hI, (Nat.sub_sub_self hle).symm, rfl⟩
  | succ k ih =>
    obtain ⟨hIk, hcnt, hout⟩ := ih
    have hlt : (k + (p - cnt g)) % p < p := Nat.mod_lt _ hp
    rw [Function.iterate_succ_apply', Nat.add_right_comm]
    refine ⟨h.keeps _ hIk, ?_⟩
    obtain ⟨hone, hmod, hdiv⟩ | ⟨hne, hmod, hdiv⟩ := phase_succ hp (k + (p - cnt g))
    · obtain ⟨hcnt', hout'⟩ := h.expires _ hIk (hcnt.trans hone)
      rw [hcnt', hout', hmod, hdiv, hout, Function.iterate_succ_apply']
      exact ⟨rfl, rfl⟩
    · obtain ⟨hcnt', hout'⟩ := h.counts _ hIk (by omega) (hcnt ▸ hne)
      rw [hcnt', hout', hmod, hdiv, hcnt, hout]
      exact ⟨by omega, rfl⟩

/-- From a fresh reload the ticks come at the multiples of the period. -/
theorem CountsDown.iterate_of_reloaded (h : CountsDown clock cnt out tick p I) {g : G} (hI : I g) (hp : 1 ≤ p)
    (hcnt : cnt g = p) (k : Nat) :
    cnt (clock^[k] g) = p - k % p ∧ out (clock^[k] g) = tick^[k / p] (out g) := by
  obtain ⟨-, hk⟩ := h.iterate hI (hcnt ▸ hp) hcnt.le k
  rwa [hcnt, Nat.sub_self, Nat.add_zero] at hk

end

/-! ### The three generators -/

theorem tone_countsDown {p : Nat} (hp : 1 ≤ p) :
    CountsDown Tone.clock (fun t => t.cnt.toNat) Tone.out not p fun t => t.period.toNat = p where
  keeps t ht := by rw [tone_clock_period, ht]
  counts t _ hpos hne := by
    obtain ⟨hcnt, hout, -⟩ := (toneClockCountsAndFlipsOnExpiry t hpos).1 hne
    exact ⟨hcnt, hout⟩
  expires t ht hone := by
    obtain ⟨hcnt, hout, -⟩ := (toneClockCountsAndFlipsOnExpiry t hone.ge).2 hone
    exact ⟨by rw [hcnt, ht, max_eq_left hp], hout⟩

theorem noise_countsDown {p : Nat} (hp : 1 ≤ p) :
    CountsDown Noise.clock (fun g => g.cnt.toNat) Noise.lfsr lfsrNext p fun g => g.period.toNat = p where
  keeps g hg := by rw [noise_clock_period, hg]
  counts g _ hpos hne := by
    obtain ⟨hcnt, hlfsr, -⟩ := (noiseClockCountsAndShiftsOnExpiry g hpos).1 hne
    exact ⟨hcnt, hlfsr⟩
  expires g hg hone := by
    have hcnt : g.cnt = 1 := BitVec.eq_of_toNat_eq hone
    exact ⟨by rw [noise_clock_cnt_of_one hcnt, hg, max_eq_left hp], by rw [noise_clock_of_one hcnt]⟩

/-- The envelope's ticks are its steps, which leave the counter out. -/
theorem env_countsDown {p : Nat} (hp : 1 ≤ p) :
    CountsDown Env.clock (fun e => e.cnt.toNat) (fun e => { e with cnt := 0 }) Env.advance p fun e => e.period.toNat = p where
  keeps e he := by rw [env_clock_period, he]
  counts e _ hpos hne := by
    have hcnt : e.cnt ≠ 1 := fun h => hne (by rw [h]; rfl)
    rw [env_clock_of_ne_one hcnt]
    exact ⟨countdown_toNat (by decide) e.cnt hpos, rfl⟩
  expires e he hone := by
    have hcnt : e.cnt = 1 := BitVec.eq_of_toNat_eq hone
    refine ⟨by rw [env_clock_cnt_of_one hcnt, he, max_eq_left hp], ?_⟩
    rw [env_clock_of_one hcnt]
    exact (advance_setCnt e 0).symm

/-- Steps of an envelope do not see its counter. -/
theorem advance_iterate_setCnt (e : Env) (x : BitVec 16) (n : Nat) :
    Env.advance^[n] { e with cnt := x } = { Env.advance^[n] e with cnt := x } :=
  iterate_comm_of_invariant (φ := fun e => { e with cnt := x }) (I := fun _ => True) (fun _ _ => trivial)
    (fun e _ => advance_setCnt e x) trivial n

/-- Settles O46: both generators count down from a fresh reload. -/
theorem shiftsAndStepsComeOncePerPeriod : Obligations.ShiftsAndStepsComeOncePerPeriod := by
  refine ⟨fun g k hp hcnt => ?_, fun e k hp hcnt => ?_⟩
  · obtain ⟨hcount, hlfsr⟩ := (noise_countsDown hp).iterate_of_reloaded (g := g) rfl hp (by rw [hcnt]) k
    exact ⟨hlfsr, hcount⟩
  · obtain ⟨hcount, hstate⟩ := (env_countsDown hp).iterate_of_reloaded (g := e) rfl hp (by rw [hcnt]) k
    rw [advance_iterate_setCnt] at hstate
    exact ⟨(congrArg Env.step hstate :), (congrArg Env.dir hstate :), hcount⟩

/-! ### The tone's two toggles -/

/-- The multiples of `p` strictly between 0 and `3 * p`. -/
theorem mod_eq_zero_iff_of_lt {p n : Nat} (hpos : 0 < n) (hlt : n < 3 * p) : n % p = 0 ↔ n = p ∨ n = 2 * p := by
  constructor
  · intro hmod
    obtain ⟨q, rfl⟩ := Nat.dvd_of_mod_eq_zero hmod
    have hq : q < 3 := Nat.lt_of_mul_lt_mul_left (a := p) (by omega)
    interval_cases q <;> omega
  · rintro (rfl | rfl)
    · exact Nat.mod_self n
    · exact Nat.mul_mod_left 2 p

/-- A tone whose period and counter agree as numbers with another's, and whose output is the other's, is the other. -/
theorem tone_ext {t u : Tone} (hperiod : t.period.toNat = u.period.toNat) (hcnt : t.cnt.toNat = u.cnt.toNat)
    (hout : t.out = u.out) : t = u := by
  obtain ⟨p, c, o⟩ := t
  obtain rfl := BitVec.eq_of_toNat_eq hperiod
  obtain rfl := BitVec.eq_of_toNat_eq hcnt
  obtain rfl := hout
  rfl

/-- Settles O39: `2 * p` clocks are two ticks and the same phase, and a tick comes where the phase reaches a multiple of `p`. -/
theorem toneIsPeriodicWithTwoToggles : Obligations.ToneIsPeriodicWithTwoToggles := by
  intro t hpos hle
  have hp : 1 ≤ t.period.toNat := hpos.trans hle
  have hclocks := (tone_countsDown hp).iterate (g := t) rfl hpos hle
  constructor
  · obtain ⟨hperiod, hcnt, hout⟩ := hclocks (2 * t.period.toNat)
    have hphase : t.period.toNat - t.cnt.toNat < t.period.toNat := by omega
    rw [Nat.mul_comm, Nat.mul_add_mod, Nat.mod_eq_of_lt hphase, Nat.sub_sub_self hle, Nat.mul_comm] at hcnt
    rw [Nat.mul_comm, Nat.mul_add_div hp, Nat.div_eq_of_lt hphase, Nat.mul_comm] at hout
    exact tone_ext hperiod hcnt (hout.trans (Bool.not_not t.out))
  · intro k hk
    obtain ⟨-, -, hout⟩ := hclocks k
    obtain ⟨-, -, hout'⟩ := hclocks (k + 1)
    rw [Nat.add_right_comm] at hout'
    have htoggle : (Tone.clock^[k + 1] t).out ≠ (Tone.clock^[k] t).out ↔
        (k + (t.period.toNat - t.cnt.toNat) + 1) % t.period.toNat = 0 := by
      obtain ⟨-, hmod, hdiv⟩ | ⟨-, hmod, hdiv⟩ := phase_succ hp (k + (t.period.toNat - t.cnt.toNat))
      · rw [hdiv, Function.iterate_succ_apply' not, ← hout] at hout'
        rw [hout', hmod]
        exact iff_of_true (Bool.not_ne_self _) rfl
      · rw [hdiv, ← hout] at hout'
        rw [hout', hmod]
        exact iff_of_false (fun h => h rfl) (Nat.succ_ne_zero _)
    rw [htoggle, mod_eq_zero_iff_of_lt (Nat.succ_pos _) (by omega)]
    omega

/-! ### The held envelope -/

/-- While holding, a clock moves the counter alone (R245, R248). -/
theorem clock_of_holding {e : Env} (h : e.holding = true) : ∃ c, e.clock = { e with cnt := c } := by
  by_cases hcnt : e.cnt = 1
  · have hadv : e.advance = e := if_pos h
    exact ⟨reload e.period, by rw [env_clock_of_one hcnt, hadv]⟩
  · exact ⟨e.cnt - 1, env_clock_of_ne_one hcnt⟩

theorem clock_iterate_of_holding {e : Env} (h : e.holding = true) (n : Nat) :
    ∃ c, Env.clock^[n] e = { e with cnt := c } := by
  induction n generalizing e with
  | zero => exact ⟨e.cnt, rfl⟩
  | succ n ih =>
    obtain ⟨c, hclock⟩ := clock_of_holding h
    obtain ⟨d, hiter⟩ := ih (e := { e with cnt := c }) h
    exact ⟨d, by rw [Function.iterate_succ_apply, hclock, hiter]⟩

/-- Settles O47: a held envelope moves its counter alone, whatever the period. -/
theorem heldLevelIsFrozen : Obligations.HeldLevelIsFrozen := by
  intro e n p h
  obtain ⟨c, hiter⟩ := clock_iterate_of_holding (e := { e with period := p }) h n
  rw [hiter]
  exact ⟨rfl, rfl, rfl, h⟩

end Sys2Proof.Machine
end

section
/-! The envelope's sixteen shapes (spec/44_envelope.md R241-R246): the level and the hold as numbers, and the step and the
direction after a restart and any number of steps. -/

namespace Sys2Proof.Machine

/-! ### Level, hold and step as numbers -/

theorem position_toNat (e : Env) : e.position.toNat = e.step.toNat % 16 := by
  rw [Env.position, BitVec.extractLsb'_toNat, Nat.shiftRight_zero]

/-- The level on each direction (R242). -/
theorem level_toNat (e : Env) :
    e.level.toNat = if e.dir = .up then e.step.toNat % 16 else 15 - e.step.toNat % 16 := by
  have hlt : e.step.toNat % 16 < 16 := Nat.mod_lt _ (by decide)
  cases hdir : e.dir with
  | up => rw [Env.level, hdir, position_toNat, if_pos rfl]
  | down =>
    rw [Env.level, hdir, if_neg (by decide), BitVec.toNat_sub, position_toNat]
    change (2 ^ 4 - e.step.toNat % 16 + 15) % 2 ^ 4 = _
    omega

/-- The envelope holds exactly at its shape's final step (R243). -/
theorem holding_iff (e : Env) : e.holding = true ↔ finalStep e.shape = some e.step := beq_iff_eq

theorem holding_iff_of_final {e : Env} {f : BitVec 5} (h : finalStep e.shape = some f) :
    e.holding = true ↔ e.step.toNat = f.toNat := by
  rw [holding_iff, h, Option.some.injEq, eq_comm, BitVec.toNat_inj]

/-- A one-shot, or a held single ramp: it holds at the end of its first ramp. -/
theorem finalStep_single {shape : BitVec 4}
    (h : continues shape = false ∨ holds shape = true ∧ alternates shape = false) : finalStep shape = some 15 := by
  unfold finalStep
  obtain hcont | ⟨hhold, halt⟩ := h
  · simp [hcont]
  · simp [hhold, halt]

/-- A repeating shape never holds. -/
theorem finalStep_repeating {shape : BitVec 4} (hcont : continues shape = true) (hhold : holds shape = false) :
    finalStep shape = none := by
  simp [finalStep, hcont, hhold]

/-- A held triangle holds at the end of its second ramp. -/
theorem finalStep_heldTriangle {shape : BitVec 4} (hcont : continues shape = true) (hhold : holds shape = true)
    (halt : alternates shape = true) : finalStep shape = some 31 := by
  simp [finalStep, hcont, hhold, halt]

/-- The step that each class of shapes holds at, as a number. -/
theorem holding_iff_toNat (e : Env) :
    e.holding = true ↔
      (e.step.toNat = 15 ∧ (continues e.shape = false ∨ holds e.shape = true ∧ alternates e.shape = false)) ∨
      (e.step.toNat = 31 ∧ continues e.shape = true ∧ holds e.shape = true ∧ alternates e.shape = true) := by
  cases hcont : continues e.shape with
  | false => simp [holding_iff_of_final (finalStep_single (.inl hcont))]
  | true =>
    cases hhold : holds e.shape with
    | false => simp [holding_iff, finalStep_repeating hcont hhold]
    | true =>
      cases halt : alternates e.shape with
      | false => simp [holding_iff_of_final (finalStep_single (.inr ⟨hhold, halt⟩))]
      | true => simp [holding_iff_of_final (finalStep_heldTriangle hcont hhold halt)]

theorem advance_of_holding {e : Env} (h : e.holding = true) : e.advance = e := if_pos h

/-- The step of an envelope that does not hold advances modulo 32 (R245). -/
theorem advance_step_toNat {e : Env} (h : e.holding = false) : e.advance.step.toNat = (e.step.toNat + 1) % 32 := by
  obtain ⟨hhold, -⟩ | ⟨-, -, hadv⟩ | ⟨-, -, hadv⟩ := env_advance_cases e
  · exact absurd (hhold.symm.trans h) (by decide)
  · rw [hadv]
    exact BitVec.toNat_add e.step 1
  · rw [hadv]
    exact BitVec.toNat_add e.step 1

/-- The position in the ramp returns to 0 at the multiples of 16. -/
theorem position_succ_iff (x : BitVec 5) : ((x + 1).extractLsb' 0 4 == 0) = true ↔ (x.toNat + 1) % 16 = 0 := by
  revert x
  decide

theorem reverse_ne (d : Dir) : d.reverse ≠ d := by
  cases d <;> decide

/-- An envelope that does not hold reverses exactly at the ramp boundaries of an alternating continuing shape (R245). -/
theorem advance_dir_ne_iff {e : Env} (h : e.holding = false) :
    e.advance.dir ≠ e.dir ↔ continues e.shape = true ∧ alternates e.shape = true ∧ (e.step.toNat + 1) % 16 = 0 := by
  rw [← position_succ_iff, ← and_assoc, ← Bool.and_eq_true, ← Bool.and_eq_true]
  obtain ⟨hhold, -⟩ | ⟨-, hturn, hadv⟩ | ⟨-, hturn, hadv⟩ := env_advance_cases e
  · exact absurd (hhold.symm.trans h) (by decide)
  · rw [hadv]
    exact iff_of_true (reverse_ne e.dir) hturn
  · rw [hadv]
    exact iff_of_false (fun hne => hne rfl) (Bool.eq_false_iff.mp hturn)

/-- Settles O43, from the level, the hold and the step as numbers. -/
theorem envStepFollowsTheShape : Obligations.EnvStepFollowsTheShape := fun e =>
  ⟨⟨rfl, rfl, rfl, rfl, rfl⟩, level_toNat e, holding_iff_toNat e, advance_of_holding, fun h =>
    ⟨advance_step_toNat h, advance_dir_ne_iff h, advance_cnt e, advance_period e, advance_shape e⟩⟩

/-! ### After a restart and `k` steps -/

theorem advance_iterate_shape (e : Env) (k : Nat) : (Env.advance^[k] e).shape = e.shape := by
  induction k with
  | zero => rfl
  | succ k ih => rw [Function.iterate_succ_apply', advance_shape, ih]

/-- The direction stays the one the shape and the step give (R31). -/
theorem advance_iterate_dir (e : Env) (k : Nat) :
    (Env.advance^[k] e.restart).dir = (Env.advance^[k] e.restart).expectedDir := by
  induction k with
  | zero => exact restart_dir_eq_expectedDir e
  | succ k ih =>
    rw [Function.iterate_succ_apply']
    exact advance_dir_eq_expectedDir ih

/-- A shape that holds counts its steps up to its final step. -/
theorem advance_iterate_step_of_final {e : Env} {f : BitVec 5} (hfinal : finalStep e.shape = some f) (k : Nat) :
    (Env.advance^[k] e.restart).step.toNat = min k f.toNat := by
  have hf : f.toNat < 32 := f.isLt
  induction k with
  | zero => exact (Nat.zero_min _).symm
  | succ k ih =>
    have hholding : (Env.advance^[k] e.restart).holding = true ↔ (Env.advance^[k] e.restart).step.toNat = f.toNat :=
      holding_iff_of_final (by rw [advance_iterate_shape, restart_shape, hfinal])
    rw [Function.iterate_succ_apply']
    cases hhold : (Env.advance^[k] e.restart).holding with
    | true =>
      have hstep := hholding.mp hhold
      rw [advance_of_holding hhold]
      omega
    | false =>
      have hne := mt hholding.mpr (Bool.eq_false_iff.mp hhold)
      rw [advance_step_toNat hhold]
      omega

/-- A repeating shape counts its steps modulo 32. -/
theorem advance_iterate_step_of_repeating {e : Env} (hfinal : finalStep e.shape = none) (k : Nat) :
    (Env.advance^[k] e.restart).step.toNat = k % 32 := by
  induction k with
  | zero => rfl
  | succ k ih =>
    have hhold : (Env.advance^[k] e.restart).holding = false := by
      rw [Bool.eq_false_iff, ne_eq, holding_iff, advance_iterate_shape, restart_shape, hfinal]
      simp
    rw [Function.iterate_succ_apply', advance_step_toNat hhold, ih]
    omega

/-- The level after `k` steps where no ramp is reversed: that of one ramp, up where At = 1 and down where At = 0. -/
theorem level_after_of_single_ramp {e : Env} {k n : Nat} (hstep : (Env.advance^[k] e.restart).step.toNat = n)
    (h : (continues e.shape && alternates e.shape) = false) :
    (Env.advance^[k] e.restart).level.toNat = if attacks e.shape = true then n % 16 else 15 - n % 16 := by
  rw [level_toNat, hstep, advance_iterate_dir, Env.expectedDir, advance_iterate_shape, restart_shape, h, Bool.false_and,
    Bool.xor_false]
  cases attacks e.shape <;> rfl

/-- Bit 4 of the step is set on the second ramp. -/
theorem step_bit4 (x : BitVec 5) : x.getLsbD 4 = decide (16 ≤ x.toNat) := by
  revert x
  decide

/-- The level after `k` steps where the second ramp of 16 steps runs the other way. -/
theorem level_after_of_triangle {e : Env} {k n : Nat} (hstep : (Env.advance^[k] e.restart).step.toNat = n)
    (h : (continues e.shape && alternates e.shape) = true) :
    (Env.advance^[k] e.restart).level.toNat =
      if n < 16 then (if attacks e.shape = true then n else 15 - n)
      else if attacks e.shape = true then 31 - n else 15 - (31 - n) := by
  have hlt : n < 32 := hstep ▸ (Env.advance^[k] e.restart).step.isLt
  rw [level_toNat, advance_iterate_dir, Env.expectedDir, advance_iterate_shape, restart_shape, h, Bool.true_and, step_bit4,
    hstep]
  by_cases hn : n < 16
  · have hmod : n % 16 = n := Nat.mod_eq_of_lt hn
    rw [if_pos hn, hmod, decide_eq_false (Nat.not_le.mpr hn), Bool.xor_false]
    cases attacks e.shape <;> rfl
  · have hmod : n % 16 = n - 16 := by omega
    rw [if_neg hn, hmod, decide_eq_true (Nat.not_lt.mp hn), Bool.xor_true]
    cases attacks e.shape with
    | false =>
      change n - 16 = 15 - (31 - n)
      omega
    | true =>
      change 15 - (n - 16) = 31 - n
      omega

/-- Settles O45: each class of shapes has its step after `k` steps, and its level there. -/
theorem envelopeLevelsOfTheSixteenShapes : Obligations.EnvelopeLevelsOfTheSixteenShapes := by
  intro e k
  refine ⟨fun hsingle => ?_, fun ⟨hcont, hhold, halt⟩ => ?_, fun ⟨hcont, hhold, halt⟩ => ?_,
    fun ⟨hcont, hhold, halt⟩ => ?_⟩
  · have hstep : (Env.advance^[k] e.restart).step.toNat = min k 15 :=
      advance_iterate_step_of_final (finalStep_single hsingle) k
    have hramp : (continues e.shape && alternates e.shape) = false :=
      Bool.and_eq_false_iff.mpr (hsingle.imp_right And.right)
    have hlevel := level_after_of_single_ramp hstep hramp
    rwa [Nat.mod_eq_of_lt (show min k 15 < 16 by omega)] at hlevel
  · have hstep := advance_iterate_step_of_repeating (finalStep_repeating hcont hhold) k
    have hramp : (continues e.shape && alternates e.shape) = false := Bool.and_eq_false_iff.mpr (.inr halt)
    have hlevel := level_after_of_single_ramp hstep hramp
    rwa [Nat.mod_mod_of_dvd k (show 16 ∣ 32 by decide)] at hlevel
  · have hstep := advance_iterate_step_of_repeating (finalStep_repeating hcont hhold) k
    exact level_after_of_triangle hstep (Bool.and_eq_true_iff.mpr ⟨hcont, halt⟩)
  · have hstep := advance_iterate_step_of_final (finalStep_heldTriangle hcont hhold halt) k
    exact level_after_of_triangle hstep (Bool.and_eq_true_iff.mpr ⟨hcont, halt⟩)

end Sys2Proof.Machine
end

section
/-! The noise sequence (spec/43_noise.md R225). A shift is linear over exclusive or, so its `2 ^ k`-th iterate is known from the
images of the 17 single bits, which `k` squarings give. The `2 ^ 17`-th iterate is the shift itself, so every state returns
after `2 ^ 17 - 1` shifts; that number is prime, and only the zero state returns after one. -/

namespace Sys2Proof.Machine

/-! ### The shift is linear -/

/-- A map of register states that respects exclusive or. -/
def XorLinear (f : BitVec 17 → BitVec 17) : Prop := ∀ x y, f (x ^^^ y) = f x ^^^ f y

/-- One shift, bit by bit: every bit moves down by one, and the feedback enters at bit 16 (R221, R223). -/
theorem getLsbD_lfsrNext (x : BitVec 17) (i : Nat) :
    (lfsrNext x).getLsbD i = if i = 16 then x.getLsbD 0 ^^ x.getLsbD 3 else x.getLsbD (i + 1) := by
  rw [lfsrNext, BitVec.getLsbD_append, BitVec.getLsbD_extractLsb', BitVec.getLsbD_ofBool, Nat.add_comm 1 i]
  obtain hi | rfl | hi := lt_trichotomy i 16
  · simp [hi, hi.ne]
  · simp
  · have hout : x.getLsbD (i + 1) = false := BitVec.getLsbD_of_ge x (i + 1) (by omega)
    have hsub : i - 16 ≠ 0 := by omega
    simp [hi.not_gt, hi.ne', hout, hsub]

theorem lfsrNext_xorLinear : XorLinear lfsrNext := by
  intro x y
  refine BitVec.eq_of_getLsbD_eq fun i _ => ?_
  simp only [getLsbD_lfsrNext, BitVec.getLsbD_xor]
  split
  · rw [Bool.xor_assoc, Bool.xor_assoc, Bool.xor_left_comm (y.getLsbD 0)]
  · rfl

theorem XorLinear.map_zero {f : BitVec 17 → BitVec 17} (hf : XorLinear f) : f 0 = 0 := by
  have h := hf 0 0
  rwa [BitVec.xor_self, BitVec.xor_self] at h

theorem XorLinear.iterate {f : BitVec 17 → BitVec 17} (hf : XorLinear f) (n : Nat) : XorLinear f^[n] := by
  intro x y
  induction n generalizing x y with
  | zero => rfl
  | succ n ih => rw [Function.iterate_succ_apply, hf, ih, ← Function.iterate_succ_apply, ← Function.iterate_succ_apply]

/-! ### A linear map from its columns -/

/-- The exclusive or of the columns whose bit is set in `x`, the first column belonging to bit `i`. -/
def combine : List (BitVec 17) → Nat → BitVec 17 → BitVec 17
  | [],      _, _ => 0
  | c :: cs, i, x => (if x.getLsbD i then c else 0) ^^^ combine cs (i + 1) x

/-- The 17 states with a single bit. -/
def singleBits : List (BitVec 17) := (List.range' 0 17).map (BitVec.twoPow 17)

/-- A single bit taken or left out, bit by bit. -/
theorem getLsbD_ite_twoPow (x : BitVec 17) {i j : Nat} (hj : j < 17) :
    (if x.getLsbD i then BitVec.twoPow 17 i else 0).getLsbD j = (x.getLsbD j && decide (i = j)) := by
  by_cases hij : i = j
  · subst hij
    cases hx : x.getLsbD i <;> simp [hj]
  · cases x.getLsbD i <;> simp [hij]

/-- The combination of the single bits from `i` on has those bits of `x`. -/
theorem getLsbD_combine_twoPow (x : BitVec 17) {j : Nat} (hj : j < 17) (n i : Nat) :
    (combine ((List.range' i n).map (BitVec.twoPow 17)) i x).getLsbD j = (x.getLsbD j && decide (i ≤ j ∧ j < i + n)) := by
  induction n generalizing i with
  | zero =>
    have hempty : ¬(i ≤ j ∧ j < i) := by omega
    simp [combine, hempty]
  | succ n ih =>
    rw [List.range'_succ, List.map_cons, combine, BitVec.getLsbD_xor, ih, getLsbD_ite_twoPow x hj, ← Bool.and_xor_distrib_left]
    congr 1
    by_cases hij : i = j
    · simp [hij]
    · have hiff : i + 1 ≤ j ∧ j < i + 1 + n ↔ i ≤ j ∧ j < i + (n + 1) := by omega
      rw [decide_eq_false hij, Bool.false_xor, decide_eq_decide.mpr hiff]

/-- Every state is the combination of its single bits. -/
theorem combine_singleBits (x : BitVec 17) : combine singleBits 0 x = x := by
  refine BitVec.eq_of_getLsbD_eq fun j hj => ?_
  have hall : 0 ≤ j ∧ j < 0 + 17 := by omega
  rw [singleBits, getLsbD_combine_twoPow x hj, decide_eq_true hall, Bool.and_true]

theorem combine_map {f : BitVec 17 → BitVec 17} (hf : XorLinear f) (cols : List (BitVec 17)) (i : Nat) (x : BitVec 17) :
    combine (cols.map f) i x = f (combine cols i x) := by
  induction cols generalizing i with
  | nil => exact hf.map_zero.symm
  | cons c cs ih =>
    rw [List.map_cons, combine, combine, hf, ih]
    split
    · rfl
    · rw [hf.map_zero]

/-- A linear map is the combination of its images of the single bits. -/
theorem XorLinear.eq_combine {f : BitVec 17 → BitVec 17} (hf : XorLinear f) (x : BitVec 17) :
    f x = combine (singleBits.map f) 0 x := by
  rw [combine_map hf, combine_singleBits]

/-- The columns of a map applied twice, from its columns. -/
def squareColumns (cols : List (BitVec 17)) : List (BitVec 17) := cols.map (combine cols 0)

theorem squareColumns_map {f : BitVec 17 → BitVec 17} (hf : XorLinear f) :
    squareColumns (singleBits.map f) = singleBits.map (f ∘ f) := by
  rw [squareColumns, List.map_map]
  exact List.map_congr_left fun x _ => (hf.eq_combine (f x)).symm

/-- The columns of the `2 ^ k`-th iterate, after `k` squarings. -/
theorem map_iterate_two_pow {f : BitVec 17 → BitVec 17} (hf : XorLinear f) (k : Nat) :
    singleBits.map f^[2 ^ k] = squareColumns^[k] (singleBits.map f) := by
  induction k with
  | zero => rfl
  | succ k ih =>
    rw [Function.iterate_succ_apply', ← ih, squareColumns_map (hf.iterate _), ← Function.iterate_add, ← Nat.two_mul,
      ← Nat.pow_succ']

/-- Seventeen squarings of the shift's columns give the shift's columns. -/
theorem squareColumns_iterate_lfsrNext :
    squareColumns^[17] (singleBits.map lfsrNext) = singleBits.map lfsrNext := by
  decide +kernel

/-! ### The period -/

/-- The shift loses nothing: only zero shifts to zero. -/
theorem lfsrNext_injective : Function.Injective lfsrNext := by
  intro x y h
  have hzero : lfsrNext (x ^^^ y) = 0 := by
    rw [lfsrNext_xorLinear, h]
    exact BitVec.xor_self
  have hxor : x ^^^ y = 0 := not_imp_not.mp lfsrNext_ne_zero hzero
  exact BitVec.xor_eq_zero_iff.mp hxor

/-- Every state returns after `2 ^ 17 - 1` shifts. -/
theorem lfsrNext_isPeriodicPt (x : BitVec 17) : Function.IsPeriodicPt lfsrNext 131071 x := by
  have hcols := map_iterate_two_pow lfsrNext_xorLinear 17
  rw [squareColumns_iterate_lfsrNext] at hcols
  have hiter : lfsrNext^[2 ^ 17] x = lfsrNext x := by
    rw [(lfsrNext_xorLinear.iterate _).eq_combine, hcols, ← lfsrNext_xorLinear.eq_combine]
  apply lfsrNext_injective
  rw [← Function.iterate_succ_apply' lfsrNext]
  exact hiter

/-- Only the zero state stays where it is: a state that stays has all its bits equal, and the feedback is then 0. -/
theorem eq_zero_of_lfsrNext_eq {x : BitVec 17} (h : lfsrNext x = x) : x = 0 := by
  have hbit : ∀ i ≤ 16, x.getLsbD i = x.getLsbD 0 := by
    intro i hi
    induction i with
    | zero => rfl
    | succ i ih =>
      have hshift := getLsbD_lfsrNext x i
      rw [h, if_neg (by omega)] at hshift
      rw [← hshift, ih (by omega)]
  have hfeedback := getLsbD_lfsrNext x 16
  rw [h, if_pos rfl, hbit 16 le_rfl, hbit 3 (by decide), Bool.xor_self] at hfeedback
  refine BitVec.eq_of_getLsbD_eq fun i hi => ?_
  rw [hbit i (by omega), hfeedback]
  exact BitVec.getLsbD_zero.symm

/-- Settles O42: the least period divides the prime 131071, and it is not 1. -/
theorem lfsrSequenceIsMaximalLength : Obligations.LfsrSequenceIsMaximalLength := by
  intro x hx
  refine ⟨lfsrNext_isPeriodicPt x, fun n hpos hlt hn => ?_⟩
  have hprime : Nat.Prime 131071 := by norm_num
  have hdvd : Function.minimalPeriod lfsrNext x ∣ 131071 := (lfsrNext_isPeriodicPt x).minimalPeriod_dvd
  obtain hone | hmax := (Nat.dvd_prime hprime).mp hdvd
  · exact hx (eq_zero_of_lfsrNext_eq (Function.minimalPeriod_eq_one_iff_isFixedPt.mp hone))
  · have hle : Function.minimalPeriod lfsrNext x ≤ n := Function.IsPeriodicPt.minimalPeriod_le hpos hn
    omega

end Sys2Proof.Machine
end
